-- ==== Sys2Proof/Word.lean ====
section
/-! DEFINITION. The word types of the CollatzRand CORE: registers are 64 bits wide (R9), bit 0 the least significant (R10). -/

namespace Sys2Proof

/-- A 64-bit register or command word (R9). -/
abbrev Word := BitVec 64

/-- One byte lane of a register (R64). -/
abbrev Byte := BitVec 8

end Sys2Proof
end

