-- ==== Sys2Proof/Config.lean ====
section
/-! DEFINITION. The configuration of one instance (R8) and the values the spec leaves free. -/

namespace Sys2Proof

/-- P_MOD_MODE: the meaning of `mod` in the bounded draws (R8, R165). -/
inductive ModMode where
  | floor
  | trunc
deriving DecidableEq, Repr

/-- P_LONG_COMBINE: how the two 32-bit halves of a 64-bit draw are combined (R8, R173). -/
inductive LongCombine where
  | concat
  | addSext
deriving DecidableEq, Repr

/-- The parameters of R8. -/
structure Config where
  /-- P_ALU_WIDTH, the width N of the expander's value register. -/
  aluWidth : Nat
  /-- P_EXP_DEPTH, the capacity of the parity stack in retained elements. -/
  expDepth : Nat
  /-- P_QUEUE_DEPTH, the capacity of the bit queue in bits. -/
  queueDepth : Nat
  /-- P_SEED_XOR, the fixed constant of the time-based seed. -/
  seedXor : Word
  /-- P_MOD_MODE. -/
  modMode : ModMode
  /-- P_LONG_COMBINE. -/
  longCombine : LongCombine
  /-- P_BASE, the bus address of the register window. -/
  base : Nat
deriving DecidableEq, Repr

/-- The legal values of the parameters (R8), with the capacity inequality of R146.
A configuration that breaks one of them is ill-formed and refused (S13). -/
abbrev Config.Legal (c : Config) : Prop :=
  64 ≤ c.aluWidth ∧ c.aluWidth ≤ 255 ∧
  1 ≤ c.expDepth ∧ c.expDepth ≤ 2 ^ 24 - 1 ∧
  95 + c.expDepth ≤ c.queueDepth ∧ c.queueDepth ≤ 2 ^ 24 - 1 ∧
  c.base % 64 = 0

/-- P_SEED_XOR is OPEN and has no default (R8, D7): nothing is known of the value the reset configuration uses.
Log entry 4. -/
opaque Config.openSeedXor : Word

/-- The n-th value the environment supplies on `tv_in` (R42, U6): any 64-bit value. Log entry 3. -/
opaque Config.tvSample : Nat → Word

/-- What SEED holds after the reset input (R230: "unspecified (any 64-bit value)"). Log entry 2. -/
opaque Config.freeSeed : Nat → Word

/-- What V holds after the reset input (R230: "unspecified"), before reduction to P_ALU_WIDTH bits. Log entry 2. -/
opaque Config.freeAluValue : Nat → Nat

/-- The defaults of R8. P_SEED_XOR has none (log entry 4); P_BASE has none either and is 0 here (DESIGN CHOICE, log
entry 5). -/
def Config.defaults : Config where
  aluWidth := 64
  expDepth := 4096
  queueDepth := 4191
  seedXor := Config.openSeedXor
  modMode := .floor
  longCombine := .concat
  base := 0

end Sys2Proof
end

