-- ==== Sys2Proof/Machine/State.lean ====
section
/-! DEFINITION. The state of one instance (10_state.md), its reset value (R230), and the reasons a step can stop. -/

namespace Sys2Proof.Machine

/-- The sequencer phase (R40). -/
inductive Phase where
  | idle
  | refill
  | expand
  | emit
  | take
  | finish
deriving DecidableEq, Repr

/-- The completion codes of R201. Codes 6 to 15 are never produced (S4). -/
inductive ErrCode where
  | ok
  | illegalCommand
  | invalidArgument
  | fatalGeneration
  | expandOverflow
  | notSeeded
deriving DecidableEq, Repr

/-- LCMD: the accepted command word's opcode and width field (R37). -/
structure LatchedCommand where
  opc : BitVec 8
  w : BitVec 6
deriving DecidableEq, Repr

/-- What a host access does (R62): a read, or a write of 64-bit data. -/
inductive AccessKind where
  | read
  | write (data : Word)
deriving DecidableEq, Repr

/-- One bus access of the host (R62): byte address, size in bytes, and kind. -/
structure Access where
  addr : Nat
  size : Nat
  kind : AccessKind
deriving DecidableEq, Repr

/-- What happens next at the boundary of the machine (R15). -/
inductive Input where
  /-- The engine gets a turn before the next input (R68: any number of micro-steps between two accesses). -/
  | engine
  /-- The bus delivers a host access. -/
  | bus (a : Access)
  /-- The reset input is asserted (R43, R231). -/
  | rst
deriving DecidableEq, Repr

/-- The answer the bus gets to a host access. -/
inductive Response where
  /-- No access has been answered yet. -/
  | none
  /-- The data of a read. -/
  | data (v : Word)
  /-- A write was performed (or ignored, or dropped: R22, R45). -/
  | written
  /-- The platform's bus error response (R63). -/
  | busError
deriving DecidableEq, Repr

/-- The state of one instance. STATUS.BUSY, QCOUNT and PARAM are views of `phase`, `queue` and `cfg` (R40, R27, R29)
and are not stored twice (log entry 9). -/
structure State where
  /-- ARG (R24). -/
  arg : Word
  /-- RESULT (R25). -/
  result : Word
  /-- STATUS.DONE (R26). -/
  done : Bool
  /-- STATUS.SEEDED (R26). -/
  seeded : Bool
  /-- STATUS.FATAL (R26). -/
  fatal : Bool
  /-- STATUS.OVR (R26). -/
  ovr : Bool
  /-- STATUS.ERR (R26, R201). -/
  err : ErrCode
  /-- SEED (R30). -/
  seed : Word
  /-- Q, head first (R31). -/
  queue : List Bool
  /-- V, a number below 2^P_ALU_WIDTH (R32, log entry 15). -/
  v : Nat
  /-- PODD (R33). -/
  podd : Bool
  /-- S, top first (R34). -/
  stack : List Bool
  /-- ACC (R35). -/
  acc : BitVec 48
  /-- D0 (R36). -/
  d0 : Word
  /-- D1 (R36). -/
  d1 : Word
  /-- LCMD (R37). -/
  lcmd : LatchedCommand
  /-- LARG (R37). -/
  larg : Word
  /-- SUB (R38). -/
  sub : Fin 2
  /-- ABT (R39). -/
  abt : Bool
  /-- phase (R40). -/
  phase : Phase
  /-- The configuration (R8); no step changes it. -/
  cfg : Config
  /-- The model's own: what the outside does next, oldest first (log entry 6). -/
  inputs : List Input
  /-- The model's own: the answer to the last host access (log entry 10). -/
  response : Response
  /-- The model's own: the values the platform will show on tv_in, next first (R42, log entry 3). -/
  tvSamples : List Word
  /-- The model's own: how many free values have been taken (log entry 17). -/
  draws : Nat
deriving DecidableEq, Repr

/-- STATUS.BUSY: 1 exactly when phase ≠ IDLE (R26, R40). -/
def State.busy (s : State) : Bool := decide (s.phase ≠ .idle)

/-- Why the machine stops. None of these can follow from a command of a host that stays inside the window (see
Sys2Proof/Safety.lean). -/
inductive Fault where
  /-- Raised by a host access to an address outside the window: not decoded by this hardware, stuck (R60, S7). Safe. -/
  | addressNotDecoded
  /-- Raised by the engine's turn when a command is running but LCMD names no draw command: no run reaches it (R37,
  R44). Safe: stuck. -/
  | noRunningCommand
  /-- Raised by REFILL and TAKE when the running command has no sub-draw SUB: no run reaches it (R38, R160). Safe: stuck. -/
  | noSubDraw
  /-- Raised by TAKE when the queue holds fewer than 48 bits: no run reaches it (R144). Safe: stuck. -/
  | queueUnderflow
deriving DecidableEq, Repr

/-- Why the model gives no step. -/
inductive Refusal where
  /-- Raised by exec's arm of a command that has no meaning yet. Safe. -/
  | notModelled (mnemonic : String)
  /-- Raised by step when the configuration breaks R8 or R146: a model refuses it (S13). Safe. -/
  | illFormedConfiguration
deriving DecidableEq, Repr

/-- The reset state of R230 for a configuration, given what SEED and V hold: R230 leaves these two unspecified. -/
def State.resetWith (cfg : Config) (seed : Word) (v : Nat) : State where
  arg := 0
  result := 0
  done := false
  seeded := false
  fatal := false
  ovr := false
  err := .ok
  seed := seed
  queue := []
  v := v
  podd := false
  stack := []
  acc := 0
  d0 := 0
  d1 := 0
  lcmd := ⟨0, 0⟩
  larg := 0
  sub := 0
  abt := false
  phase := .idle
  cfg := cfg
  inputs := []
  response := .none
  tvSamples := []
  draws := 0

/-- The machine right after reset (R230) in the default configuration (R8). SEED and V, which R230 leaves unspecified, are 0
(DESIGN CHOICE, log entry 1); the model's own fields are empty (DESIGN CHOICE, log entry 17). -/
def State.reset : State := State.resetWith Config.defaults 0 0

end Sys2Proof.Machine
end

