-- ==== Sys2Proof/Machine/Expansion.lean ====
section
/-! DEFINITION. The expansion function of 41_sequence_expander.md section 1 (normative, R120 to R124), and the datapath
operations of the iterative ALU that compute it (R125). -/

namespace Sys2Proof.Machine

/-- The parity bit of a value (R14). -/
def parity (v : Nat) : Bool := decide (v % 2 = 1)

/-- The hailstone transform T on N-bit values (R14, R121). -/
def hailstone (n v : Nat) : Nat := if v % 2 = 0 then v / 2 else (3 * v + 1) % 2 ^ n

/-- `hail` (R121): the visited values from v to the first that is 0 or 1, if at most `fuel` values are visited. -/
def hail (n : Nat) : Nat → Nat → Option (List Nat)
  | 0, _ => none
  | fuel + 1, v => if v ≤ 1 then some [v] else (hail n fuel (hailstone n v)).map (v :: ·)

/-- Remove the first even element, if there is one (R122: "remove exactly that one element"). -/
def removeFirstEven : List Nat → List Nat
  | [] => []
  | v :: l => if v % 2 = 0 then l else v :: removeFirstEven l

/-- The scan of R122, over at most `fuel` positions: at an odd anchor the nearest following even element is removed. -/
def trimScan : Nat → List Nat → List Nat
  | 0, l => l
  | _ + 1, [] => []
  | fuel + 1, v :: l => if v % 2 = 1 then v :: trimScan fuel (removeFirstEven l) else v :: trimScan fuel l

/-- `trim` (R122). -/
def trim (l : List Nat) : List Nat := trimScan l.length l

/-- The elements R123 retains: all but those whose predecessor is odd. `podd` says that the element before the list is odd. -/
def retained : Bool → List Nat → List Nat
  | _, [] => []
  | podd, v :: l => if podd then retained (parity v) l else v :: retained (parity v) l

/-- `expand(s)` (R120, R124): the parities of the trimmed list, last retained element first. -/
def expandBits (n fuel s : Nat) : Option (List Bool) :=
  (hail n fuel (s % 2 ^ n)).map fun l => (trim l).reverse.map parity

/-- `a +_N b` (R11). -/
def addN (n a b : Nat) : Nat := (a + b) % 2 ^ n

/-- The shift-divide of R125: `V >> 1`. -/
def shiftDivide (v : Nat) : Nat := v / 2

/-- The multiply-add of R125: `(V +_N (V << 1)) +_N 1`. -/
def multiplyAdd (n v : Nat) : Nat := addN n (addN n v ((v * 2) % 2 ^ n)) 1

/-- The EXPAND step's push (R125): the parity of V, on top of the stack. -/
def State.pushParity (s : State) : State := { s with stack := parity s.v :: s.stack }

/-- The last part of the EXPAND step (R125): the comparator, then the shift-divide or the multiply-add. -/
def State.nextElement (s : State) : State :=
  if s.v ≤ 1 then { s with phase := .emit }
  else if s.v % 2 = 0 then { s with v := shiftDivide s.v, podd := false }
  else { s with v := multiplyAdd s.cfg.aluWidth s.v, podd := true }

end Sys2Proof.Machine
end

