-- ==== Sys2Proof/Machine/Flags.lean ====
section
/-! DEFINITION. The status flags (R26, R41): the STATUS and PARAM views, and the completion procedures that write them. -/

namespace Sys2Proof.Machine

/-- The 4-bit code of R201. -/
def ErrCode.code : ErrCode → BitVec 4
  | .ok => 0#4
  | .illegalCommand => 1#4
  | .invalidArgument => 2#4
  | .fatalGeneration => 3#4
  | .expandOverflow => 4#4
  | .notSeeded => 5#4

/-- STATUS as a host reads it (R26): ERR in 11:8, OVR, FATAL, SEEDED, DONE, BUSY in 4:0, every other bit 0. -/
def State.statusWord (s : State) : Word :=
  0#52 ++ s.err.code ++ 0#3 ++ BitVec.ofBool s.ovr ++ BitVec.ofBool s.fatal ++ BitVec.ofBool s.seeded
    ++ BitVec.ofBool s.done ++ BitVec.ofBool s.busy

/-- PARAM bit 56 (R29). -/
def modBit : ModMode → BitVec 1
  | .floor => 0#1
  | .trunc => 1#1

/-- PARAM bit 57 (R29). -/
def longBit : LongCombine → BitVec 1
  | .concat => 0#1
  | .addSext => 1#1

/-- PARAM as a host reads it. DEDUCED: R29 is followed against rows 1 and 3 of V-PARAM and against P1 (log entry 14). -/
def paramWord (c : Config) : Word :=
  0#6 ++ longBit c.longCombine ++ modBit c.modMode ++ BitVec.ofNat 8 c.aluWidth ++ BitVec.ofNat 24 c.queueDepth
    ++ BitVec.ofNat 24 c.expDepth

/-- A host write to STATUS: data bit 4 clears OVR, every other bit is ignored (R26). -/
def State.writeStatus (data : Word) (s : State) : State :=
  { s with ovr := s.ovr && !data.getLsbD 4 }

/-- Overrun: a dropped CMD write sets OVR (R45). -/
def State.overrun (s : State) : State := { s with ovr := true }

/-- `complete OK` (R46). BUSY falls with the phase. -/
def State.completeOk (s : State) : State :=
  { s with err := .ok, done := true, abt := false, phase := .idle }

/-- Procedure `reject` (R204). The phase stays IDLE, so BUSY stays 0. -/
def State.reject (code : ErrCode) (s : State) : State := { s with err := code, done := true }

/-- Procedure `fail` (R205). -/
def State.fail (code : ErrCode) (s : State) : State :=
  { s with
    stack := []
    err := code
    fatal := true
    seeded := false
    done := true
    abt := false
    phase := .idle }

end Sys2Proof.Machine
end

