-- ==== Sys2Proof/Syntax.lean ====
section
/-! DEFINITION. The commands of the opcode map (R81), one constructor per row of spec/opcode_table.json. -/

namespace Sys2Proof

/-- A command of R81. No command has a register operand (R85): DRAW_BITS carries its width field W, and every other
operand comes from the latched ARG or from tv_in. -/
inductive Instr where
  /-- SEED_LOAD, R104. -/
  | seedLoad
  /-- SEED_TIME, R105. -/
  | seedTime
  /-- DRAW_BITS with its W field, R167. -/
  | drawBits (w : BitVec 6)
  /-- NEXT_BOOL, R168. -/
  | nextBool
  /-- NEXT_BYTE, R169. -/
  | nextByte
  /-- NEXT_SHORT, R170. -/
  | nextShort
  /-- NEXT_INT, R171. -/
  | nextInt
  /-- NEXT_LONG, R173. -/
  | nextLong
  /-- NEXT_SHORT_LIM, R174. -/
  | nextShortLim
  /-- NEXT_INT_LIM, R175. -/
  | nextIntLim
  /-- NEXT_LONG_LIM, R177. -/
  | nextLongLim
  /-- NEXT_FLOAT, R178. -/
  | nextFloat
  /-- NEXT_DOUBLE, R179. -/
  | nextDouble
deriving DecidableEq, Repr

end Sys2Proof
end

