-- ==== Sys2Proof/WellFormed.lean ====
section
/-! DEFINITION. Which terms of Instr stand for a legal command word (R82). -/

namespace Sys2Proof

/-- The width test of R82: DRAW_BITS needs 1 ≤ W ≤ 48. -/
def legalDrawWidth (w : BitVec 6) : Bool :=
  decide (1 ≤ w.toNat) && decide (w.toNat ≤ 48)

/-- A well-formed command: the only operand inside a command word is the W field of DRAW_BITS (R82, R85). -/
def Instr.wf : Instr → Bool
  | .drawBits w => legalDrawWidth w
  | .seedLoad => true
  | .seedTime => true
  | .nextBool => true
  | .nextByte => true
  | .nextShort => true
  | .nextInt => true
  | .nextLong => true
  | .nextShortLim => true
  | .nextIntLim => true
  | .nextLongLim => true
  | .nextFloat => true
  | .nextDouble => true

end Sys2Proof
end

