-- ==== Sys2Proof/Decode.lean ====
section
/-! DEFINITION. The command decoder (R80 to R86), total on any word and on any list of bytes, and the encoder. -/

namespace Sys2Proof

/-- Why a command word is not legal (R82, R86). -/
inductive DecodeError where
  /-- Not exactly 64 bits (R80). -/
  | wrongLength
  /-- RSV, bits 63:14, is not 0. -/
  | reservedBits
  /-- OPC is not a row of R81. -/
  | unassignedOpcode
  /-- W is outside 1..48 for DRAW_BITS, or not 0 for another command. -/
  | widthOutOfRange
deriving DecidableEq, Repr

/-- OPC, bits 7:0 of a command word (R80). -/
def opcField (c : Word) : BitVec 8 := c.extractLsb' 0 8

/-- W, bits 13:8 of a command word (R80). -/
def widthField (c : Word) : BitVec 6 := c.extractLsb' 8 6

/-- RSV, bits 63:14 of a command word (R80). -/
def reservedField (c : Word) : BitVec 50 := c.extractLsb' 14 50

/-- The rows of R81, by opcode, for a given width field. -/
def commandOf (opc : BitVec 8) (w : BitVec 6) : Option Instr :=
  match opc with
  | 0x01#8 => some .seedLoad
  | 0x02#8 => some .seedTime
  | 0x10#8 => some (.drawBits w)
  | 0x11#8 => some .nextBool
  | 0x12#8 => some .nextByte
  | 0x13#8 => some .nextShort
  | 0x14#8 => some .nextInt
  | 0x15#8 => some .nextLong
  | 0x16#8 => some .nextShortLim
  | 0x17#8 => some .nextIntLim
  | 0x18#8 => some .nextLongLim
  | 0x19#8 => some .nextFloat
  | 0x1A#8 => some .nextDouble
  | _ => none

/-- The W test of R82 for an opcode: 1 to 48 for DRAW_BITS, 0 for every other command. -/
def legalWidthFor (opc : BitVec 8) (w : BitVec 6) : Bool :=
  if opc = 0x10#8 then legalDrawWidth w else w == 0#6

/-- Decoding of a command word (R84): a row of R81, or the reason the word is illegal (R82). -/
def decode (c : Word) : Except DecodeError Instr :=
  if reservedField c ≠ 0#50 then .error .reservedBits
  else
    match commandOf (opcField c) (widthField c) with
    | none => .error .unassignedOpcode
    | some i => if legalWidthFor (opcField c) (widthField c) then .ok i else .error .widthOutOfRange

/-- A register from its bytes, lowest address first (R64). -/
def wordOfBytes : List Byte → Nat
  | [] => 0
  | b :: bs => b.toNat + 256 * wordOfBytes bs

/-- Decoding of a command word given as bytes, lowest address first: exactly eight (R80, R64). -/
def decodeBytes (bytes : List Byte) : Except DecodeError Instr :=
  if bytes.length = 8 then decode (BitVec.ofNat 64 (wordOfBytes bytes)) else .error .wrongLength

/-- OPC of a command (R81). -/
def Instr.opcode : Instr → BitVec 8
  | .seedLoad => 0x01#8
  | .seedTime => 0x02#8
  | .drawBits _ => 0x10#8
  | .nextBool => 0x11#8
  | .nextByte => 0x12#8
  | .nextShort => 0x13#8
  | .nextInt => 0x14#8
  | .nextLong => 0x15#8
  | .nextShortLim => 0x16#8
  | .nextIntLim => 0x17#8
  | .nextLongLim => 0x18#8
  | .nextFloat => 0x19#8
  | .nextDouble => 0x1A#8

/-- W of a command: the width of DRAW_BITS, 0 for every other command (R81). -/
def Instr.width : Instr → BitVec 6
  | .drawBits w => w
  | .seedLoad => 0#6
  | .seedTime => 0#6
  | .nextBool => 0#6
  | .nextByte => 0#6
  | .nextShort => 0#6
  | .nextInt => 0#6
  | .nextLong => 0#6
  | .nextShortLim => 0#6
  | .nextIntLim => 0#6
  | .nextLongLim => 0#6
  | .nextFloat => 0#6
  | .nextDouble => 0#6

/-- The command word with a given W and OPC and RSV = 0 (R80). -/
def commandWord (w : BitVec 6) (opc : BitVec 8) : Word := 0#50 ++ w ++ opc

/-- The command word of a command (R80, R81). -/
def encode (i : Instr) : Word := commandWord i.width i.opcode

/-- The n bytes of a number, lowest first (R64). -/
def bytesOf : Nat → Nat → List Byte
  | 0, _ => []
  | n + 1, x => BitVec.ofNat 8 x :: bytesOf n (x / 256)

/-- The bytes of a table word of `nbits` bits: the hardware's eight, the bits above `nbits` 0; a longer word keeps its own
length and is no command (R80). -/
def tableBytes (nbits w : Nat) : List Byte :=
  bytesOf (max 8 ((nbits + 7) / 8)) (w % 2 ^ nbits)

/-- The command the decoder reads from a word numbered as spec/opcode_table.json numbers it. -/
def decodeTableWord (nbits w : Nat) : Option Instr :=
  match decodeBytes (tableBytes nbits w) with
  | .ok i => some i
  | .error _ => none

end Sys2Proof
end

