-- ==== Sys2Proof/Machine/Operands.lean ====
section
/-! DEFINITION. Where a command's operands come from (R83, R85, R160, R172): its sub-draw widths, its limit, the latched command
and argument, and the tv_in sample. -/

namespace Sys2Proof.Machine

/-- The sub-draws column of R81: the widths of a command's windowed draws, in order. -/
def subDrawWidths : Instr → List Nat
  | .seedLoad => []
  | .seedTime => []
  | .drawBits w => [w.toNat]
  | .nextBool => [1]
  | .nextByte => [8]
  | .nextShort => [16]
  | .nextInt => [32]
  | .nextLong => [32, 32]
  | .nextShortLim => [16]
  | .nextIntLim => [32]
  | .nextLongLim => [32, 32]
  | .nextFloat => [24]
  | .nextDouble => [26, 27]

/-- The width w_k of sub-draw k, if the command has one (R160). -/
def subDrawWidth (i : Instr) (k : Fin 2) : Option Nat := (subDrawWidths i)[k.val]?

/-- Whether the command has a sub-draw k + 1 (R161). -/
def hasSubDrawAfter (i : Instr) (k : Fin 2) : Bool := decide (k.val + 1 < (subDrawWidths i).length)

/-- `is_draw` (R83): every command but the two seed commands. -/
def isDraw : Instr → Bool
  | .seedLoad => false
  | .seedTime => false
  | .drawBits _ => true
  | .nextBool => true
  | .nextByte => true
  | .nextShort => true
  | .nextInt => true
  | .nextLong => true
  | .nextShortLim => true
  | .nextIntLim => true
  | .nextLongLim => true
  | .nextFloat => true
  | .nextDouble => true

/-- signed_T of the low T bits of a register (R11, R85). -/
def signedLow (t : Nat) (x : Word) : Int := (x.setWidth t).toInt

/-- `limit(opc, LARG)` (R85, R172), for the limited draws of R83; the bits of LARG above the limit's width are ignored. -/
def limitOf (i : Instr) (larg : Word) : Option Int :=
  match i with
  | .nextShortLim => some (signedLow 16 larg)
  | .nextIntLim => some (signedLow 32 larg)
  | .nextLongLim => some (signedLow 64 larg)
  | .seedLoad => none
  | .seedTime => none
  | .drawBits _ => none
  | .nextBool => none
  | .nextByte => none
  | .nextShort => none
  | .nextInt => none
  | .nextLong => none
  | .nextFloat => none
  | .nextDouble => none

/-- The test of R44 and R172: a limited draw whose limit is ≤ 0. -/
def limitRejected (i : Instr) (larg : Word) : Bool :=
  match limitOf i larg with
  | some l => decide (l ≤ 0)
  | none => false

/-- The acceptance latch (R44): LCMD from the command word, LARG from ARG, SUB, ABT and DONE cleared. -/
def State.latchCommand (c : Word) (s : State) : State :=
  { s with
    lcmd := ⟨opcField c, widthField c⟩
    larg := s.arg
    sub := 0
    abt := false
    done := false }

/-- The draw command LCMD names, if it names one (R37, R83). -/
def State.runningCommand (s : State) : Option Instr :=
  match decode (commandWord s.lcmd.w s.lcmd.opc) with
  | .ok i => if isDraw i then some i else none
  | .error _ => none

/-- The value a SEED_TIME samples on tv_in (R42, R105): the next one the platform will show, or a free value. -/
def State.tvIn (s : State) : Word :=
  match s.tvSamples with
  | t :: _ => t
  | [] => Config.tvSample s.draws

/-- The state after one sample of tv_in: the sample is used up. -/
def State.tvTaken (s : State) : State :=
  match s.tvSamples with
  | _ :: ts => { s with tvSamples := ts }
  | [] => { s with draws := s.draws + 1 }

/-- D_SUB <- d (R160, R161). -/
def State.setD (d : Word) (s : State) : State :=
  if s.sub = 0 then { s with d0 := d } else { s with d1 := d }

end Sys2Proof.Machine
end

