-- ==== Sys2Proof/Machine/Packing.lean ====
section
/-! DEFINITION. The arithmetic of the ValueAssembler: the 48-bit window (R160, R161), width conversion (R164), wrapping absolute
value and modulus (R165), the combination of two halves (R173), and the float packings (R176). -/

namespace Sys2Proof.Machine

/-- The number whose bit i is the i-th bit of the list (R65). -/
def natOfBits : List Bool → Nat
  | [] => 0
  | b :: bs => b.toNat + 2 * natOfBits bs

/-- The accumulator of a window: bit i is the i-th popped bit (R160, R161). -/
def packWindow (window : List Bool) : BitVec 48 := BitVec.ofNat 48 (natOfBits window)

/-- The sub-draw value of a window: `zext_64(ACC >> (48 - w))` (R160, R161). -/
def subDrawValue (acc : BitVec 48) (w : Nat) : Word := (acc >>> (48 - w)).setWidth 64

/-- `sext_64` of the low T bits (R164). -/
def sextLow (t : Nat) (d : Word) : Word := (d.setWidth t).signExtend 64

/-- `abs_T`: the absolute value that wraps in T bits (R11). -/
def absWrap (t : Nat) (x : Int) : Int := if 0 ≤ x then x else (BitVec.ofInt t (-x)).toInt

/-- `a mod L` in the configured meaning (R165, R11): the floor modulus or the truncated remainder. -/
def modulus (m : ModMode) (a l : Int) : Int :=
  match m with
  | .floor => Int.fmod a l
  | .trunc => Int.tmod a l

/-- `bounded_T(x, L)` (R165). -/
def bounded (m : ModMode) (t : Nat) (x l : Int) : Int := modulus m (absWrap t x) l

/-- The 64-bit combination of two 32-bit sub-draws (R173). -/
def combineHalves (m : LongCombine) (d0 d1 : Word) : Word :=
  match m with
  | .concat => d0.setWidth 32 ++ d1.setWidth 32
  | .addSext => (d0 <<< 32) + sextLow 32 d1

/-- `f32bits(m)` (R176): the binary32 pattern of m · 2^-24, for m < 2^24. -/
def f32bits (m : Nat) : BitVec 32 :=
  if m = 0 then 0
  else BitVec.ofNat 32 (((m.log2 + 103) <<< 23) ||| ((m <<< (23 - m.log2)) &&& 0x7FFFFF))

/-- `f64bits(m)` (R176): the binary64 pattern of m · 2^-53, for m < 2^53. -/
def f64bits (m : Nat) : BitVec 64 :=
  if m = 0 then 0
  else BitVec.ofNat 64 (((m.log2 + 970) <<< 52) ||| ((m <<< (52 - m.log2)) &&& (2 ^ 52 - 1)))

end Sys2Proof.Machine
end

