-- ==== Sys2Proof/Machine/Ops.lean ====
section
/-! DEFINITION. The operations every command shares: the seed advance, construction, acceptance, and the five micro-steps of the
engine (R40). How an error ends a command, the only exception this hardware has (R200), is `State.reject` and `State.fail` of
Flags.lean; there is no return from one but a new command (R212). -/

namespace Sys2Proof.Machine

/-- The outcome of a step of this machine. -/
abbrev StepOutcome := Host.Outcome State Fault Refusal

/-- MODIFIER (R7, R100). -/
def modifier : Word := 0x655F50619#64

/-- `advance()` (R100): the compare-and-swap succeeds at its first attempt (R101), so it is one multiply mod 2^64. (The
constant stands on the left, which is the same product, so that the kernel does not unroll it.) -/
def advanceSeed (seed : Word) : Word := modifier * seed

/-- Construction by a seed command (R104, R105): the new seed, an empty queue, SEEDED set, FATAL cleared, `complete OK`. -/
def State.construct (seed : Word) (s : State) : State :=
  { s with seed := seed, queue := [], seeded := true, fatal := false }.completeOk

/-- The seed of SEED_TIME (R105). -/
def timeSeed (tv seedXor : Word) : Word := tv ^^^ seedXor

/-- Acceptance of a draw command (R44), its tests in the order of R207. -/
def acceptDraw (i : Instr) (s : State) : State :=
  let latched := s.latchCommand (encode i)
  if i.wf = false then latched.reject .illegalCommand
  else if s.seeded = false then latched.reject .notSeeded
  else if limitRejected i s.arg then latched.reject .invalidArgument
  else { latched with phase := .refill }

/-- The advance and the start of its expansion (R141, R142). -/
def State.startExpansion (s : State) : State :=
  { s with
    seed := advanceSeed s.seed
    v := (advanceSeed s.seed).toNat % 2 ^ s.cfg.aluWidth
    podd := false
    stack := []
    phase := .expand }

/-- REFILL (R141), for a sub-draw of width w: the queue test, then ABT, then the advance. -/
def State.refill (w : Nat) (s : State) : State :=
  if 48 + w ≤ s.queue.length then { s with phase := .take }
  else if s.abt then s.fail .fatalGeneration
  else s.startExpansion

/-- EXPAND (R125): ABT first, then the push or its overflow, then the next element. -/
def State.expand (s : State) : State :=
  if s.abt then s.fail .fatalGeneration
  else if s.podd then s.nextElement
  else if s.stack.length = s.cfg.expDepth then s.fail .expandOverflow
  else s.pushParity.nextElement

/-- EMIT (R126): the whole stack is appended, top first. -/
def State.emit (s : State) : State :=
  { s with queue := s.queue ++ s.stack, stack := [], phase := .refill }

/-- The 48 pops of TAKE (R161). -/
def State.popWindow (s : State) : State :=
  { s with acc := packWindow (s.queue.take 48), queue := s.queue.drop 48 }

/-- The end of TAKE (R161): the next sub-draw, or FINISH. -/
def State.afterTake (more : Bool) (s : State) : State :=
  if more then { s with sub := 1, phase := .refill } else { s with phase := .finish }

/-- TAKE (R161), for a sub-draw of width w: the pops and the shift are one step. -/
def State.takeSubDraw (w : Nat) (more : Bool) (s : State) : State :=
  ((s.popWindow).setD (subDrawValue (s.popWindow).acc w)).afterTake more

/-- FINISH (R166): RESULT, then `complete OK`. -/
def State.finish (result : Word) (s : State) : State := { s with result := result }.completeOk

/-- The REFILL micro-step of a running command: w is the width of its current sub-draw. -/
def refillStep (i : Instr) (s : State) : StepOutcome :=
  match subDrawWidth i s.sub with
  | none => .fault .noSubDraw
  | some w => .next (s.refill w)

/-- The TAKE micro-step of a running command. Fewer than 48 bits in the queue cannot happen (R144); the model stops. -/
def takeStep (i : Instr) (s : State) : StepOutcome :=
  match subDrawWidth i s.sub with
  | none => .fault .noSubDraw
  | some w =>
    if s.queue.length < 48 then .fault .queueUnderflow
    else .next (s.takeSubDraw w (hasSubDrawAfter i s.sub))

/-- One atomic step of a draw command (R40): its acceptance when the machine is idle, else the micro-step of the phase.
`assemble` is the command's RESULT as a function of D0 and D1 (R166). -/
def drawStep (i : Instr) (assemble : Word → Word → Word) (s : State) : StepOutcome :=
  match s.phase with
  | .idle => .next (acceptDraw i s)
  | .refill => refillStep i s
  | .expand => .next s.expand
  | .emit => .next s.emit
  | .take => takeStep i s
  | .finish => .next (s.finish (assemble s.d0 s.d1))

/-- A seed command's step: dropped while a command runs (R45), else the acceptance latch and then the construction. -/
def seedStep (i : Instr) (build : State → State) (s : State) : StepOutcome :=
  if s.busy then .next s.overrun else .next (build (s.latchCommand (encode i)))

/-- The reset input (R230, R231): everything as after reset. SEED and V are left unspecified: they take free values (log
entry 2). The configuration, the inputs still to come, the samples on tv_in and the last bus answer are not the hardware's. -/
def State.resetEvent (s : State) : State :=
  { State.resetWith s.cfg (Config.freeSeed s.draws) (Config.freeAluValue s.draws % 2 ^ s.cfg.aluWidth) with
    inputs := s.inputs
    response := s.response
    tvSamples := s.tvSamples
    draws := s.draws + 1 }

end Sys2Proof.Machine
end

