-- ==== Sys2Proof/Machine/SeedState.lean ====
section
/-! DEFINITION. The seed commands (40_seed_state.md). -/

namespace Sys2Proof.Machine

/-- SEED_LOAD (R104): the seed is LARG, the ARG value at acceptance. -/
def execSeedLoad (s : State) : StepOutcome :=
  seedStep .seedLoad (fun t => t.construct t.larg) s

/-- SEED_TIME (R105): the seed is a sample of tv_in XOR P_SEED_XOR. ARG is ignored. -/
def execSeedTime (s : State) : StepOutcome :=
  seedStep .seedTime (fun t => t.tvTaken.construct (timeSeed t.tvIn t.cfg.seedXor)) s

end Sys2Proof.Machine
end

