-- ==== Sys2Proof/Machine/ValueAssembler.lean ====
section
/-! DEFINITION. The draw commands (43_value_assembler.md): each is `drawStep` with the command's own RESULT. -/

namespace Sys2Proof.Machine

/-- DRAW_BITS (R167): RESULT is D0. -/
def execDrawBits (w : BitVec 6) (s : State) : StepOutcome :=
  drawStep (.drawBits w) (fun d0 _ => d0) s

/-- NEXT_BOOL (R168): RESULT is 1 if D0 ≠ 0, else 0. -/
def execNextBool (s : State) : StepOutcome :=
  drawStep .nextBool (fun d0 _ => if d0 ≠ 0 then 1 else 0) s

/-- NEXT_BYTE (R169): sext_64(D0[7:0]). -/
def execNextByte (s : State) : StepOutcome :=
  drawStep .nextByte (fun d0 _ => sextLow 8 d0) s

/-- NEXT_SHORT (R170): sext_64(D0[15:0]). -/
def execNextShort (s : State) : StepOutcome :=
  drawStep .nextShort (fun d0 _ => sextLow 16 d0) s

/-- NEXT_INT (R171): sext_64(D0[31:0]). -/
def execNextInt (s : State) : StepOutcome :=
  drawStep .nextInt (fun d0 _ => sextLow 32 d0) s

/-- NEXT_LONG (R173): the two halves combined. -/
def execNextLong (s : State) : StepOutcome :=
  drawStep .nextLong (fun d0 d1 => combineHalves s.cfg.longCombine d0 d1) s

/-- NEXT_SHORT_LIM (R174): bounded_16 of the signed draw, sign-extended. -/
def execNextShortLim (s : State) : StepOutcome :=
  drawStep .nextShortLim
    (fun d0 _ => BitVec.ofInt 64 (bounded s.cfg.modMode 16 (signedLow 16 d0) (signedLow 16 s.larg))) s

/-- NEXT_INT_LIM (R175): bounded_32 of the signed draw, sign-extended. -/
def execNextIntLim (s : State) : StepOutcome :=
  drawStep .nextIntLim
    (fun d0 _ => BitVec.ofInt 64 (bounded s.cfg.modMode 32 (signedLow 32 d0) (signedLow 32 s.larg))) s

/-- NEXT_LONG_LIM (R177): bounded_64 of the combined signed draw. -/
def execNextLongLim (s : State) : StepOutcome :=
  drawStep .nextLongLim
    (fun d0 d1 =>
      BitVec.ofInt 64
        (bounded s.cfg.modMode 64 (signedLow 64 (combineHalves s.cfg.longCombine d0 d1)) (signedLow 64 s.larg))) s

/-- NEXT_FLOAT (R178): the binary32 pattern of D0 · 2^-24, zero-extended. -/
def execNextFloat (s : State) : StepOutcome :=
  drawStep .nextFloat (fun d0 _ => (f32bits d0.toNat).setWidth 64) s

/-- NEXT_DOUBLE (R179): the binary64 pattern of ((D0 << 27) + D1) · 2^-53. -/
def execNextDouble (s : State) : StepOutcome :=
  drawStep .nextDouble (fun d0 d1 => f64bits ((d0 <<< 27).toNat + d1.toNat)) s

end Sys2Proof.Machine
end

