-- ==== Sys2Proof/Machine/Dispatch.lean ====
section
/-! DEFINITION. One atomic step of each command. -/

namespace Sys2Proof.Machine

/-- One arm per command of R81. -/
def exec (i : Instr) (s : State) : Host.Outcome State Fault Refusal :=
  match i with
  | .seedLoad => Sys2Proof.Machine.execSeedLoad s
  | .seedTime => Sys2Proof.Machine.execSeedTime s
  | .drawBits w => Sys2Proof.Machine.execDrawBits w s
  | .nextBool => Sys2Proof.Machine.execNextBool s
  | .nextByte => Sys2Proof.Machine.execNextByte s
  | .nextShort => Sys2Proof.Machine.execNextShort s
  | .nextInt => Sys2Proof.Machine.execNextInt s
  | .nextLong => Sys2Proof.Machine.execNextLong s
  | .nextShortLim => Sys2Proof.Machine.execNextShortLim s
  | .nextIntLim => Sys2Proof.Machine.execNextIntLim s
  | .nextLongLim => Sys2Proof.Machine.execNextLongLim s
  | .nextFloat => Sys2Proof.Machine.execNextFloat s
  | .nextDouble => Sys2Proof.Machine.execNextDouble s

end Sys2Proof.Machine
end

