-- ==== Sys2Proof/Machine/Window.lean ====
section
/-! DEFINITION. The host register window (10_state.md section 2, 20_memory.md): which register an access reaches, what a read
returns and what a write does. -/

namespace Sys2Proof.Machine

/-- The registers of the window (R22). -/
inductive Reg where
  | cmd
  | arg
  | result
  | status
  | qcount
  | abort
  | param
  | reserved
deriving DecidableEq, Repr

/-- The register at offset 8k (R22). -/
def regAt : Nat → Reg
  | 0 => .cmd
  | 1 => .arg
  | 2 => .result
  | 3 => .status
  | 4 => .qcount
  | 5 => .abort
  | 6 => .param
  | _ => .reserved

/-- What an access reaches: nothing of this hardware (R60, S7), a bus error (R63), or a register (R62). -/
inductive Selection where
  | outside
  | refused
  | reg (r : Reg)
deriving DecidableEq, Repr

/-- The window's address decoding (R60, R62, R63), by the access's own address. -/
def selectReg (base addr size : Nat) : Selection :=
  if addr < base ∨ base + 64 ≤ addr then .outside
  else if size ≠ 8 ∨ (addr - base) % 8 ≠ 0 then .refused
  else .reg (regAt ((addr - base) / 8))

/-- A read of a register of the window (R22 to R29): CMD, ABORT and the reserved offset read 0. -/
def State.readReg (r : Reg) (s : State) : Word :=
  match r with
  | .cmd => 0
  | .arg => s.arg
  | .result => s.result
  | .status => s.statusWord
  | .qcount => BitVec.ofNat 64 s.queue.length
  | .abort => 0
  | .param => paramWord s.cfg
  | .reserved => 0

/-- A write to ABORT (R28): data bit 0 sets ABT while a command runs. -/
def State.writeAbort (data : Word) (s : State) : State :=
  { s with abt := s.abt || (s.busy && data.getLsbD 0) }

/-- A write to a register other than CMD (R24, R26, R28, R67): RESULT, QCOUNT, PARAM and the reserved offset ignore it. CMD is
`commandWrite`. -/
def State.writeReg (r : Reg) (data : Word) (s : State) : State :=
  match r with
  | .arg => { s with arg := data }
  | .status => s.writeStatus data
  | .abort => s.writeAbort data
  | .cmd => s
  | .result => s
  | .qcount => s
  | .param => s
  | .reserved => s

/-- The rejection of an illegal command word (R44, R82, R202): what acceptance writes, then `reject`. -/
def State.rejectIllegal (c : Word) (s : State) : State := (s.latchCommand c).reject .illegalCommand

/-- A host write to CMD: dropped while busy (R45), else accepted (R44). `run` is one step of a command. -/
def commandWrite (run : Instr → State → StepOutcome) (c : Word) (s : State) : StepOutcome :=
  if s.busy then .next s.overrun
  else
    match decode c with
    | .ok i => run i s
    | .error _ => .next (s.rejectIllegal c)

/-- The bus answer of an access (log entry 10). -/
def State.respond (r : Response) (s : State) : State := { s with response := r }

/-- A host access to a register of the window (R66, R67). -/
def registerAccess (run : Instr → State → StepOutcome) (r : Reg) (kind : AccessKind) (s : State) : StepOutcome :=
  match kind with
  | .read => .next (s.respond (.data (s.readReg r)))
  | .write data =>
    match r with
    | .cmd => commandWrite run data (s.respond .written)
    | _ => .next ((s.writeReg r data).respond .written)

/-- A host access (R60, R62, R63). -/
def hostAccess (run : Instr → State → StepOutcome) (a : Access) (s : State) : StepOutcome :=
  match selectReg s.cfg.base a.addr a.size with
  | .outside => .fault .addressNotDecoded
  | .refused => .next (s.respond .busError)
  | .reg r => registerAccess run r a.kind s

/-- The byte of the window at offset `off` as byte lanes present it (R64): byte off mod 8 of the register there, little-endian.
No legal access sees it (R63). -/
def State.windowByte (off : Nat) (s : State) : Byte :=
  (s.readReg (regAt (off / 8))).extractLsb' (8 * (off % 8)) 8

end Sys2Proof.Machine
end

