-- ==== Sys2Proof/Machine/Sequencer.lean ====
section
/-! DEFINITION. Which agent moves next (R15, R68), and where a command word comes from. -/

namespace Sys2Proof.Machine

/-- The engine's turn (R40): none in IDLE (the state stays as it is, log entry 7), else one micro-step of the running command. -/
def engineTurn (run : Instr → State → StepOutcome) (s : State) : StepOutcome :=
  if s.busy then
    match s.runningCommand with
    | some i => run i s
    | none => .fault .noRunningCommand
  else .next s

/-- The step, given one step of a command: the next input if there is one, else the engine's turn (R15, R68, R251). An
ill-formed configuration is refused (S13). -/
def stepWith (run : Instr → State → StepOutcome) (s : State) : StepOutcome :=
  if s.cfg.Legal then
    match s.inputs with
    | [] => engineTurn run s
    | .engine :: rest => engineTurn run { s with inputs := rest }
    | .bus a :: rest => hostAccess run a { s with inputs := rest }
    | .rst :: rest => .next { s with inputs := rest }.resetEvent
  else .refused .illFormedConfiguration

/-- A host write to a register of the window (R62, R87 `wr`): its offset is 8k. -/
def hostWrite (base k : Nat) (data : Word) : Input := .bus ⟨base + 8 * k, 8, .write data⟩

/-- A host read of a register of the window (R62, R87 `rd`): its offset is 8k. -/
def hostRead (base k : Nat) : Input := .bus ⟨base + 8 * k, 8, .read⟩

/-- The state in which the next input is a host write of a command word to CMD. A CMD write is accepted only when no command runs
(R44), so the engine is put in IDLE with its stack empty (R47); log entry 16. -/
def State.withCommandWord (c : Word) (s : State) : State :=
  { s with phase := .idle, stack := [], inputs := hostWrite s.cfg.base 0 c :: s.inputs }

end Sys2Proof.Machine
end

