-- ==== Sys2Proof/Machine/Step.lean ====
section
/-! DEFINITION. One step of the machine, and the placing of a command word where the next step reads it. -/

namespace Sys2Proof.Machine

/-- One atomic step: a host access, the reset input, or the engine's turn. -/
def step (s : State) : Host.Outcome State Fault Refusal := stepWith exec s

/-- s with a command word of the opcode table as the next CMD write. -/
def State.withFetchWord (s : State) (nbits w : Nat) : State :=
  s.withCommandWord (BitVec.ofNat 64 (wordOfBytes (tableBytes nbits w)))

end Sys2Proof.Machine
end

