-- ==== Sys2Proof/Safety.lean ====
section
/-! DEFINITION. What counts as a safe state and a safe run: the invariants of R47, those that keep the engine from getting stuck,
and the terms the statements are written in. -/

namespace Sys2Proof.Machine

/-- The phases in which the stack is empty: it is filled only by EXPAND and drained by EMIT and `fail` (R34, R126, R205). -/
def Phase.stackEmpty : Phase → Bool
  | .expand => false
  | .emit => false
  | .idle => true
  | .refill => true
  | .take => true
  | .finish => true

/-- The sub-draw registers that hold a value already (R161): D0 from the second sub-draw on, both at FINISH. -/
def subDrawsDone (s : State) : Nat :=
  if s.phase = .finish then s.sub.val + 1 else s.sub.val

/-- What holds while a command runs: it is a well-formed draw (R44), SUB is one of its sub-draws (R38), the generator is seeded (R47),
DONE is 0 (R26), the limit of a limited draw is positive (R172), and the sub-draw values made so far fit their widths (R160). -/
structure Running (i : Instr) (s : State) : Prop where
  command : s.runningCommand = some i
  subDraw : s.sub.val < (subDrawWidths i).length
  seeded : s.seeded = true
  notDone : s.done = false
  limit : limitRejected i s.larg = false
  d0Fits : 1 ≤ subDrawsDone s → ∀ w, (subDrawWidths i)[0]? = some w → s.d0.toNat < 2 ^ w
  d1Fits : 2 ≤ subDrawsDone s → ∀ w, (subDrawWidths i)[1]? = some w → s.d1.toNat < 2 ^ w
  lastSubDraw : s.phase = .finish → s.sub.val + 1 = (subDrawWidths i).length
  refillNeeded : s.phase = .expand ∨ s.phase = .emit → ∀ w, subDrawWidth i s.sub = some w → s.queue.length < 48 + w
  windowReady : s.phase = .take → ∀ w, subDrawWidth i s.sub = some w → 48 + w ≤ s.queue.length

/-- The machine's invariant. The first four clauses after the configuration are those of R47. -/
structure Inv (s : State) : Prop where
  legal : s.cfg.Legal
  queueFits : s.queue.length ≤ s.cfg.queueDepth
  stackFits : s.stack.length ≤ s.cfg.expDepth
  stackIdle : s.phase.stackEmpty = true → s.stack = []
  fatalUnseeded : s.fatal = true → s.seeded = false
  valueFits : s.v < 2 ^ s.cfg.aluWidth
  abortIdle : s.phase = .idle → s.abt = false
  oddFollower : s.phase = .expand → s.podd = true → s.v % 2 = 0
  firstRetained : s.phase = .expand → s.stack = [] → s.podd = false
  emitNonempty : s.phase = .emit → s.stack ≠ []
  running : s.phase ≠ .idle → ∃ i, Running i s

/-- An input the machine can take: the engine's turn, the reset input, or an access inside the window (R60, S7). -/
def Input.decoded (base : Nat) : Input → Bool
  | .engine => true
  | .rst => true
  | .bus a => decide (base ≤ a.addr) && decide (a.addr < base + 64)

/-- k steps, as far as they are next states. -/
def runSteps : Nat → State → StepOutcome
  | 0, s => .next s
  | k + 1, s =>
    match step s with
    | .next t => runSteps k t
    | .fault r => .fault r
    | .refused r => .refused r

/-- signed_T of a T-bit pattern given as a number (R11). -/
def signedOf (t x : Nat) : Int := if x < 2 ^ (t - 1) then x else (x : Int) - 2 ^ t

/-- `legal(c)` (R82), on the number c. -/
def legalWord (c : Word) : Bool :=
  decide (c.toNat / 2 ^ 14 = 0)
    && decide (c.toNat % 256 = 0x01 ∨ c.toNat % 256 = 0x02 ∨ (0x10 ≤ c.toNat % 256 ∧ c.toNat % 256 ≤ 0x1A))
    && (if c.toNat % 256 = 0x10 then decide (1 ≤ c.toNat / 256 % 64 ∧ c.toNat / 256 % 64 ≤ 48)
        else decide (c.toNat / 256 % 64 = 0))

/-- `is_draw` (R83), on the opcode of a legal word. -/
def drawWord (c : Word) : Bool := decide (0x10 ≤ c.toNat % 256 ∧ c.toNat % 256 ≤ 0x1A)

/-- The limit is ≤ 0 in a limited draw (R83, R172), on the numbers c and ARG. -/
def badLimit (c arg : Word) : Bool :=
  (decide (c.toNat % 256 = 0x16) && decide (signedOf 16 (arg.toNat % 2 ^ 16) ≤ 0))
    || (decide (c.toNat % 256 = 0x17) && decide (signedOf 32 (arg.toNat % 2 ^ 32) ≤ 0))
    || (decide (c.toNat % 256 = 0x18) && decide (signedOf 64 arg.toNat ≤ 0))

/-- The state after `fail(code)` (R205). -/
def failed (code : ErrCode) (s : State) : State :=
  { s with stack := [], err := code, fatal := true, seeded := false, done := true, abt := false, phase := .idle }

/-- The state after FINISH with a RESULT (R166, R46). -/
def completed (result : Word) (s : State) : State :=
  { s with result := result, err := .ok, done := true, abt := false, phase := .idle }

/-- bounded_T (R165): only the most negative value has no absolute value of its own. -/
def boundedOf (m : ModMode) (t : Nat) (x l : Int) : Int :=
  let a : Int := if x = -(2 ^ (t - 1)) then x else (x.natAbs : Int)
  match m with
  | .floor => Int.fmod a l
  | .trunc => Int.tmod a l

/-- The 64-bit draw of NEXT_LONG as a number mod 2^64 (R173). -/
def longOf (m : LongCombine) (d0 d1 : Word) : Word :=
  match m with
  | .concat => BitVec.ofNat 64 (d0.toNat % 2 ^ 32 * 2 ^ 32 + d1.toNat % 2 ^ 32)
  | .addSext => BitVec.ofInt 64 (d0.toNat * 2 ^ 32 + signedOf 32 (d1.toNat % 2 ^ 32))

/-- RESULT of a draw command from its sub-draw values and its latched argument (R167 to R179); a seed command has none. -/
def drawResult (i : Instr) (c : Config) (larg d0 d1 : Word) : Word :=
  match i with
  | .drawBits _ => d0
  | .nextBool => if d0 = 0 then 0 else 1
  | .nextByte => BitVec.ofInt 64 (signedOf 8 (d0.toNat % 2 ^ 8))
  | .nextShort => BitVec.ofInt 64 (signedOf 16 (d0.toNat % 2 ^ 16))
  | .nextInt => BitVec.ofInt 64 (signedOf 32 (d0.toNat % 2 ^ 32))
  | .nextLong => longOf c.longCombine d0 d1
  | .nextShortLim =>
    BitVec.ofInt 64
      (boundedOf c.modMode 16 (signedOf 16 (d0.toNat % 2 ^ 16)) (signedOf 16 (larg.toNat % 2 ^ 16)))
  | .nextIntLim =>
    BitVec.ofInt 64
      (boundedOf c.modMode 32 (signedOf 32 (d0.toNat % 2 ^ 32)) (signedOf 32 (larg.toNat % 2 ^ 32)))
  | .nextLongLim =>
    BitVec.ofInt 64
      (boundedOf c.modMode 64 (signedOf 64 (longOf c.longCombine d0 d1).toNat) (signedOf 64 larg.toNat))
  | .nextFloat => (f32bits d0.toNat).setWidth 64
  | .nextDouble => f64bits (d0.toNat * 2 ^ 27 % 2 ^ 64 + d1.toNat)
  | .seedLoad => 0
  | .seedTime => 0

/-- The seed after k advances (R145: s1 = s0 *_64 M, s2 = s1 *_64 M, and so on). -/
def seedAfter : Nat → Word → Word
  | 0, s => s
  | k + 1, s => seedAfter k (advanceSeed s)

/-- The first k expansions of the bit stream B of a seed (R145), if each ends within `fuel` values. -/
def streamBits (n fuel : Nat) : Nat → Word → Option (List Bool)
  | 0, _ => some []
  | k + 1, s =>
    (expandBits n fuel (advanceSeed s).toNat).bind fun b =>
      (streamBits n fuel k (advanceSeed s)).map fun r => b ++ r

/-- The value of the k-th window of a bit list for a sub-draw of width w (R145, R160). -/
def windowValue (bits : List Bool) (k w : Nat) : Word :=
  subDrawValue (packWindow ((bits.drop (48 * k)).take 48)) w

/-- The step bound of a command (R147, R250): per sub-draw 48 + w expansions of at most 2·P_EXP_DEPTH + 3 steps, a REFILL and a
TAKE, then FINISH. -/
def commandBound (i : Instr) (c : Config) : Nat :=
  ((subDrawWidths i).map fun w => (48 + w) * (2 * c.expDepth + 3) + 2).sum + 1

/-- Two states no host can tell apart (R30, R32, R35, R36, R61, R232): they agree on everything a host can read and on all the
state that can still reach RESULT; SEED counts only while SEEDED, V and PODD only in EXPAND, the latches only while a command
runs, and D0 and D1 only once the running command has written them. -/
structure ObservablyEqual (s t : State) : Prop where
  arg : s.arg = t.arg
  result : s.result = t.result
  done : s.done = t.done
  seeded : s.seeded = t.seeded
  fatal : s.fatal = t.fatal
  ovr : s.ovr = t.ovr
  err : s.err = t.err
  queue : s.queue = t.queue
  stack : s.stack = t.stack
  abt : s.abt = t.abt
  phase : s.phase = t.phase
  cfg : s.cfg = t.cfg
  inputs : s.inputs = t.inputs
  response : s.response = t.response
  tvSamples : s.tvSamples = t.tvSamples
  draws : s.draws = t.draws
  seed : s.seeded = true → s.seed = t.seed
  v : s.phase = .expand → s.v = t.v
  podd : s.phase = .expand → s.podd = t.podd
  lcmd : s.phase ≠ .idle → s.lcmd = t.lcmd
  larg : s.phase ≠ .idle → s.larg = t.larg
  sub : s.phase ≠ .idle → s.sub = t.sub
  d0 : s.phase ≠ .idle → 1 ≤ subDrawsDone s → s.d0 = t.d0
  d1 : s.phase ≠ .idle → 2 ≤ subDrawsDone s → s.d1 = t.d1

/-- A generator with the degenerate seed (R102, U9): SEED is 0 and every bit it has produced is 0. -/
structure Degenerate (s : State) : Prop where
  seed : s.seed = 0
  queue : ∀ b ∈ s.queue, b = false
  stack : ∀ b ∈ s.stack, b = false
  value : s.phase = .expand → s.v = 0
  d0 : s.phase ≠ .idle → 1 ≤ subDrawsDone s → s.d0 = 0
  d1 : s.phase ≠ .idle → 2 ≤ subDrawsDone s → s.d1 = 0

end Sys2Proof.Machine
end

