-- ==== Sys2Proof/Certificates/Slice0/Obligations.lean ====
section
/-! DEFINITION. The statements of this row, from the numbered rules of spec/. A step of a command is `exec`; a step of the machine is
`step`; `completed`, `failed`, `drawResult` and the other terms they share are in Sys2Proof/Safety.lean. An equation
`exec i s = .next { s with … }` also says the frame: every field not named keeps its value. -/

open Sys2Proof Sys2Proof.Machine

/-! ## Reset and the machine's steps -/

/-- R230: the reset input puts the machine in the reset state whatever it was doing. Of SEED and V, which R230 leaves unspecified,
nothing is said. -/
def Obligations.ResetInputGivesTheResetState : Prop :=
  ∀ (s : State) (rest : List Input), s.cfg.Legal → s.inputs = .rst :: rest →
    ∃ t, step s = .next t ∧
      t.readReg .arg = 0 ∧ t.readReg .result = 0 ∧ t.readReg .status = 0 ∧ t.readReg .qcount = 0 ∧
      t.readReg .param = paramWord s.cfg ∧ t.readReg .cmd = 0 ∧ t.readReg .abort = 0 ∧
      t.queue = [] ∧ t.stack = [] ∧ t.podd = false ∧ t.acc = 0 ∧ t.d0 = 0 ∧ t.d1 = 0 ∧
      t.lcmd = ⟨0, 0⟩ ∧ t.larg = 0 ∧ t.sub = 0 ∧ t.abt = false ∧ t.phase = .idle ∧
      t.cfg = s.cfg ∧ t.inputs = rest

/-- The invariant holds at State.reset. Its values of SEED and V are the model's choice (log entry 1), and so is P_BASE (log
entry 5). -/
def Obligations.InvHoldsAtReset : Prop := Inv State.reset

/-- R44, R68: a command word written to CMD while the machine is idle is run by `exec` of the command it decodes to; the input is used
up and the bus is answered. -/
def Obligations.StepRunsTheWrittenCommand : Prop :=
  ∀ (s : State) (c : Word) (i : Instr) (rest : List Input),
    s.cfg.Legal → s.phase = .idle → decode c = .ok i → s.inputs = hostWrite s.cfg.base 0 c :: rest →
      step s = exec i { s with inputs := rest, response := .written }

/-- R40: the engine's turn runs one step of the command LCMD names, with no input pending or when the next input is the engine's
turn. In IDLE there is no engine step: the model's turn leaves the state as it is (the model's choice, log entries 6 and 7). -/
def Obligations.EngineTurnRunsTheRunningCommand : Prop :=
  (∀ (s : State) (i : Instr), s.cfg.Legal → s.phase ≠ .idle → s.runningCommand = some i →
    (s.inputs = [] → step s = exec i s) ∧
    (∀ rest, s.inputs = .engine :: rest → step s = exec i { s with inputs := rest })) ∧
  (∀ s : State, s.cfg.Legal → s.phase = .idle →
    (s.inputs = [] → step s = .next s) ∧
    (∀ rest, s.inputs = .engine :: rest → step s = .next { s with inputs := rest }))

/-- R8, R146, S13: an ill-formed configuration is refused. -/
def Obligations.IllFormedConfigurationIsRefused : Prop :=
  ∀ s : State,
    (s.cfg.queueDepth < 95 + s.cfg.expDepth ∨ s.cfg.aluWidth < 64 ∨ 255 < s.cfg.aluWidth ∨ s.cfg.expDepth < 1 ∨
      2 ^ 24 - 1 < s.cfg.expDepth ∨ 2 ^ 24 - 1 < s.cfg.queueDepth ∨ s.cfg.base % 64 ≠ 0) →
    step s = .refused .illFormedConfiguration

/-! ## Encoding -/

/-- R89: the command words listed there, and its illegal examples. -/
def Obligations.ListedCommandWordsDecode : Prop :=
  decode 0x0000000000000001#64 = .ok .seedLoad ∧ decode 0x0000000000000002#64 = .ok .seedTime ∧
  decode 0x0000000000000110#64 = .ok (.drawBits 1) ∧ decode 0x0000000000002010#64 = .ok (.drawBits 32) ∧
  decode 0x0000000000003010#64 = .ok (.drawBits 48) ∧ decode 0x0000000000000011#64 = .ok .nextBool ∧
  decode 0x0000000000000012#64 = .ok .nextByte ∧ decode 0x0000000000000013#64 = .ok .nextShort ∧
  decode 0x0000000000000014#64 = .ok .nextInt ∧ decode 0x0000000000000015#64 = .ok .nextLong ∧
  decode 0x0000000000000016#64 = .ok .nextShortLim ∧ decode 0x0000000000000017#64 = .ok .nextIntLim ∧
  decode 0x0000000000000018#64 = .ok .nextLongLim ∧ decode 0x0000000000000019#64 = .ok .nextFloat ∧
  decode 0x000000000000001A#64 = .ok .nextDouble ∧
  decode 0x0000000000000010#64 = .error .widthOutOfRange ∧ decode 0x0000000000003110#64 = .error .widthOutOfRange ∧
  decode 0x0000000000000114#64 = .error .widthOutOfRange ∧ decode 0x0000000000004014#64 = .error .reservedBits ∧
  decode 0x0000000000000000#64 = .error .unassignedOpcode

/-- Decoding the encoding of a well-formed command gives the command, as a word and as the eight bytes of R64. -/
def Obligations.DecodingAnEncodingGivesTheCommand : Prop :=
  ∀ i : Instr, i.wf = true →
    decode (encode i) = .ok i ∧ decodeBytes (bytesOf 8 (encode i).toNat) = .ok i ∧
    decodeTableWord 64 (encode i).toNat = some i

/-- R82, R84: the decoder accepts exactly the legal words, and a word has at most the one meaning whose encoding it is. -/
def Obligations.DecoderAcceptsExactlyTheLegalWords : Prop :=
  ∀ c : Word,
    (legalWord c = true ↔ ∃ i, decode c = .ok i) ∧
    (∀ i, decode c = .ok i → i.wf = true ∧ encode i = c)

/-! ## Acceptance -/

/-- R44: a CMD write while idle, for every 64-bit word, with the tests in the order the rule gives. -/
def Obligations.AcceptanceFollowsTheTestsInOrder : Prop :=
  ∀ (s : State) (c : Word) (rest : List Input),
    s.cfg.Legal → s.phase = .idle → s.inputs = hostWrite s.cfg.base 0 c :: rest →
      let latched : State :=
        { s with
          inputs := rest, response := .written, lcmd := ⟨c.extractLsb' 0 8, c.extractLsb' 8 6⟩, larg := s.arg,
          sub := 0, abt := false, done := false }
      step s = .next
        (if legalWord c = false then { latched with err := .illegalCommand, done := true }
         else if drawWord c = true ∧ s.seeded = false then { latched with err := .notSeeded, done := true }
         else if badLimit c s.arg = true then { latched with err := .invalidArgument, done := true }
         else if c.toNat % 256 = 0x01 then
           { latched with seed := s.arg, queue := [], seeded := true, fatal := false, err := .ok, done := true }
         else if c.toNat % 256 = 0x02 then
           { latched with
             seed := s.tvIn ^^^ s.cfg.seedXor, queue := [], seeded := true, fatal := false, err := .ok, done := true,
             tvSamples := s.tvSamples.tail, draws := if s.tvSamples = [] then s.draws + 1 else s.draws }
         else { latched with phase := .refill })

/-- R45: a CMD write while a command runs is dropped and sets OVR; the running command is unaffected. -/
def Obligations.OverrunDropsTheCommand : Prop :=
  ∀ (s : State) (c : Word) (rest : List Input),
    s.cfg.Legal → s.phase ≠ .idle → s.inputs = hostWrite s.cfg.base 0 c :: rest →
      step s = .next { s with inputs := rest, response := .written, ovr := true }

/-- R104: SEED_LOAD while idle loads ARG as the seed, empties the queue, sets SEEDED, clears FATAL and completes OK; while a command
runs it is dropped (R45). -/
def Obligations.SeedLoadConstructsTheGenerator : Prop :=
  ∀ s : State,
    (s.phase = .idle → exec .seedLoad s = .next
      { s with
        seed := s.arg, queue := [], seeded := true, fatal := false, err := .ok, done := true, abt := false,
        lcmd := ⟨0x01, 0⟩, larg := s.arg, sub := 0 }) ∧
    (s.phase ≠ .idle → exec .seedLoad s = .next { s with ovr := true })

/-- R105: SEED_TIME while idle loads a sample of tv_in XOR P_SEED_XOR, whatever the sample; the sample is used up. When the list of
samples is empty the sample is a free value. The list and the counter are the model's form of R42's draw (log entry 3). While a
command runs the write is dropped (R45). -/
def Obligations.SeedTimeConstructsFromAnySample : Prop :=
  ∀ s : State,
    (∀ (tv : Word) (more : List Word), s.phase = .idle → s.tvSamples = tv :: more → exec .seedTime s = .next
      { s with
        seed := tv ^^^ s.cfg.seedXor, queue := [], seeded := true, fatal := false, err := .ok, done := true,
        abt := false, lcmd := ⟨0x02, 0⟩, larg := s.arg, sub := 0, tvSamples := more }) ∧
    (s.phase = .idle → s.tvSamples = [] → exec .seedTime s = .next
      { s with
        seed := Config.tvSample s.draws ^^^ s.cfg.seedXor, queue := [], seeded := true, fatal := false, err := .ok,
        done := true, abt := false, lcmd := ⟨0x02, 0⟩, larg := s.arg, sub := 0, draws := s.draws + 1 }) ∧
    (s.phase ≠ .idle → exec .seedTime s = .next { s with ovr := true })

/-- R44: every draw command in its own right: idle, seeded and with a positive limit if it is limited, it is accepted and starts its
first sub-draw's refill. -/
def Obligations.DrawIsAcceptedWhenSeeded : Prop :=
  ∀ (i : Instr) (s : State),
    isDraw i = true → i.wf = true → s.phase = .idle → s.seeded = true → limitRejected i s.arg = false →
      exec i s = .next
        { s with
          lcmd := ⟨i.opcode, i.width⟩, larg := s.arg, sub := 0, abt := false, done := false, phase := .refill }

/-- R82, R167, R203, R206, R204, R207: a draw command that is rejected changes only LCMD, LARG, SUB, ABT, DONE and ERR; the first test
that applies gives the code. -/
def Obligations.RejectedDrawChangesOnlyTheLatches : Prop :=
  ∀ (i : Instr) (s : State),
    isDraw i = true → s.phase = .idle →
    (i.wf = false ∨ s.seeded = false ∨ limitRejected i s.arg = true) →
      exec i s = .next
        { s with
          lcmd := ⟨i.opcode, i.width⟩, larg := s.arg, sub := 0, abt := false, done := true,
          err :=
            if i.wf = false then .illegalCommand else if s.seeded = false then .notSeeded else .invalidArgument }

/-! ## The micro-steps -/

/-- R141, R142: REFILL, for every draw command: the queue test comes first, then ABT, then one advance that starts an expansion of
the new seed. -/
def Obligations.RefillTestsThenAdvances : Prop :=
  ∀ (i : Instr) (s : State) (w : Nat),
    isDraw i = true → s.phase = .refill → subDrawWidth i s.sub = some w →
      exec i s = .next
        (if 48 + w ≤ s.queue.length then { s with phase := .take }
         else if s.abt = true then failed .fatalGeneration s
         else
           { s with
             seed := 0x655F50619#64 * s.seed, v := (0x655F50619#64 * s.seed).toNat % 2 ^ s.cfg.aluWidth,
             podd := false, stack := [], phase := .expand })

/-- R125: EXPAND, for every draw command: ABT first, then the push of a retained element or its overflow, then the comparator and the
hailstone step. -/
def Obligations.ExpandVisitsOneElement : Prop :=
  ∀ (i : Instr) (s : State), isDraw i = true → s.phase = .expand →
    exec i s = .next
      (if s.abt = true then failed .fatalGeneration s
       else if s.podd = false ∧ s.stack.length = s.cfg.expDepth then failed .expandOverflow s
       else
         let pushed := if s.podd = true then s.stack else decide (s.v % 2 = 1) :: s.stack
         if s.v ≤ 1 then { s with stack := pushed, phase := .emit }
         else if s.v % 2 = 0 then { s with stack := pushed, v := s.v / 2, podd := false }
         else { s with stack := pushed, v := (3 * s.v + 1) % 2 ^ s.cfg.aluWidth, podd := true })

/-- R126: EMIT, for every draw command: the whole stack is appended to the queue's tail, top first. -/
def Obligations.EmitAppendsTheWholeExpansion : Prop :=
  ∀ (i : Instr) (s : State), isDraw i = true → s.phase = .emit →
    exec i s = .next { s with queue := s.queue ++ s.stack, stack := [], phase := .refill }

/-- R161, R162: TAKE, for every well-formed draw command: the i-th popped bit is bit i of ACC, the sub-draw's value has bit j equal
to popped bit 48 − w + j, exactly 48 bits leave the head of the queue, and the next sub-draw or FINISH follows. -/
def Obligations.TakePopsTheWindow : Prop :=
  ∀ (i : Instr) (s : State) (w : Nat),
    isDraw i = true → i.wf = true → s.phase = .take → subDrawWidth i s.sub = some w → 48 ≤ s.queue.length →
      ∃ t, exec i s = .next t ∧
        (∀ j, j < 48 → s.queue[j]? = some (t.acc.getLsbD j)) ∧
        (∀ j, j < w → s.queue[48 - w + j]? = some ((if s.sub = 0 then t.d0 else t.d1).getLsbD j)) ∧
        (if s.sub = 0 then t.d0 else t.d1).toNat < 2 ^ w ∧
        t =
          { s with
            acc := t.acc, queue := s.queue.drop 48,
            d0 := if s.sub = 0 then t.d0 else s.d0, d1 := if s.sub = 0 then s.d1 else t.d1,
            sub := if s.sub.val + 1 < (subDrawWidths i).length then 1 else s.sub,
            phase := if s.sub.val + 1 < (subDrawWidths i).length then .refill else .finish }

/-- R144: fewer than 48 bits at TAKE cannot happen in a run (`InvariantStatesNeverStop`); a state that has them stops. This is the
model's choice (log entry 12). -/
def Obligations.TakeWithoutAWindowStops : Prop :=
  ∀ (i : Instr) (s : State) (w : Nat),
    isDraw i = true → s.phase = .take → subDrawWidth i s.sub = some w → s.queue.length < 48 →
      exec i s = .fault .queueUnderflow

/-! ## The results -/

/-- R167 to R171 with R166 and R46: FINISH of the single-window draws. -/
def Obligations.NarrowDrawResults : Prop :=
  ∀ s : State, s.phase = .finish →
    (∀ w, exec (.drawBits w) s = .next (completed s.d0 s)) ∧
    exec .nextBool s = .next (completed (if s.d0 = 0 then 0 else 1) s) ∧
    exec .nextByte s = .next (completed (BitVec.ofInt 64 (signedOf 8 (s.d0.toNat % 2 ^ 8))) s) ∧
    exec .nextShort s = .next (completed (BitVec.ofInt 64 (signedOf 16 (s.d0.toNat % 2 ^ 16))) s) ∧
    exec .nextInt s = .next (completed (BitVec.ofInt 64 (signedOf 32 (s.d0.toNat % 2 ^ 32))) s)

/-- R173 with R166 and R46: FINISH of NEXT_LONG, under both combinations; they differ exactly when bit 31 of D1 is 1 (and then by
2^32), for 32-bit halves. -/
def Obligations.LongDrawCombinesTheHalves : Prop :=
  ∀ s : State, s.phase = .finish →
    exec .nextLong s = .next (completed (longOf s.cfg.longCombine s.d0 s.d1) s) ∧
    (s.d0.toNat < 2 ^ 32 → s.d1.toNat < 2 ^ 32 →
      longOf .concat s.d0 s.d1 = s.d0 <<< 32 ||| s.d1 ∧
      longOf .addSext s.d0 s.d1 = longOf .concat s.d0 s.d1 - (if s.d1.getLsbD 31 then 0x100000000#64 else 0#64))

/-- R174, R175, R177 with R165, R166 and R46: FINISH of the limited draws. -/
def Obligations.LimitedDrawResults : Prop :=
  ∀ s : State, s.phase = .finish →
    exec .nextShortLim s = .next (completed (BitVec.ofInt 64 (boundedOf s.cfg.modMode 16
      (signedOf 16 (s.d0.toNat % 2 ^ 16)) (signedOf 16 (s.larg.toNat % 2 ^ 16)))) s) ∧
    exec .nextIntLim s = .next (completed (BitVec.ofInt 64 (boundedOf s.cfg.modMode 32
      (signedOf 32 (s.d0.toNat % 2 ^ 32)) (signedOf 32 (s.larg.toNat % 2 ^ 32)))) s) ∧
    exec .nextLongLim s = .next (completed (BitVec.ofInt 64 (boundedOf s.cfg.modMode 64
      (signedOf 64 (longOf s.cfg.longCombine s.d0 s.d1).toNat) (signedOf 64 s.larg.toNat))) s)

/-- R180: with FLOOR every limited result lies in [0, L); with TRUNC it does so except exactly for the most negative draw when L does
not divide it. -/
def Obligations.LimitedDrawsStayInRange : Prop :=
  ∀ (i : Instr) (s : State) (t : Nat) (x l : Int), s.phase = .finish →
    (i = .nextShortLim ∧ t = 16 ∧ x = signedOf 16 (s.d0.toNat % 2 ^ 16) ∧ l = signedOf 16 (s.larg.toNat % 2 ^ 16) ∨
     i = .nextIntLim ∧ t = 32 ∧ x = signedOf 32 (s.d0.toNat % 2 ^ 32) ∧ l = signedOf 32 (s.larg.toNat % 2 ^ 32) ∨
     i = .nextLongLim ∧ t = 64 ∧ x = signedOf 64 (longOf s.cfg.longCombine s.d0 s.d1).toNat ∧
       l = signedOf 64 s.larg.toNat) →
    0 < l →
      ∃ u, exec i s = .next u ∧
        (s.cfg.modMode = .floor → 0 ≤ u.result.toInt ∧ u.result.toInt < l) ∧
        (s.cfg.modMode = .trunc →
          ((0 ≤ u.result.toInt ∧ u.result.toInt < l) ↔ ¬ (x = -(2 ^ (t - 1)) ∧ ¬ l ∣ 2 ^ (t - 1))))

/-- R178, R179 with R166 and R46: FINISH of NEXT_FLOAT and NEXT_DOUBLE. -/
def Obligations.FloatDrawResults : Prop :=
  ∀ s : State, s.phase = .finish →
    exec .nextFloat s = .next (completed ((f32bits s.d0.toNat).setWidth 64) s) ∧
    (s.d0.toNat < 2 ^ 26 → s.d1.toNat < 2 ^ 27 →
      exec .nextDouble s = .next (completed (f64bits (s.d0.toNat * 2 ^ 27 + s.d1.toNat)) s))

/-- R176: the packings are exact. Read as IEEE 754 numbers the patterns are m · 2^-24 and m · 2^-53: sign 0, a biased exponent of a
normal number in the stated range, and (2^F + fraction) · 2^exponent equal to the scaled m. -/
def Obligations.FloatPackingsAreExact : Prop :=
  f32bits 0 = 0 ∧ f64bits 0 = 0 ∧
  (∀ m : Nat, 0 < m → m < 2 ^ 24 →
    let b := (f32bits m).toNat
    b < 2 ^ 31 ∧ 103 ≤ b / 2 ^ 23 ∧ b / 2 ^ 23 ≤ 126 ∧ (2 ^ 23 + b % 2 ^ 23) * 2 ^ (b / 2 ^ 23) = m * 2 ^ 126) ∧
  (∀ m : Nat, 0 < m → m < 2 ^ 53 →
    let b := (f64bits m).toNat
    b < 2 ^ 63 ∧ 970 ≤ b / 2 ^ 52 ∧ b / 2 ^ 52 ≤ 1022 ∧ (2 ^ 52 + b % 2 ^ 52) * 2 ^ (b / 2 ^ 52) = m * 2 ^ 1022)

/-- The frame of every draw command: a step of it that gives a next state leaves ARG, OVR, the configuration and the model's own
fields alone, changes RESULT only at FINISH, the latches only at acceptance, SEED only in REFILL, the queue only in EMIT and TAKE,
SEEDED and FATAL only by `fail` in REFILL or EXPAND, and every byte of the window outside RESULT, STATUS and QCOUNT never. -/
def Obligations.DrawStepFrame : Prop :=
  ∀ (i : Instr) (s t : State), isDraw i = true → exec i s = .next t →
    t.arg = s.arg ∧ t.ovr = s.ovr ∧ t.cfg = s.cfg ∧ t.inputs = s.inputs ∧ t.response = s.response ∧
    t.tvSamples = s.tvSamples ∧ t.draws = s.draws ∧
    (s.phase ≠ .finish → t.result = s.result) ∧
    (s.phase ≠ .idle → t.lcmd = s.lcmd ∧ t.larg = s.larg) ∧
    (s.phase ≠ .refill → t.seed = s.seed) ∧
    (s.phase ≠ .emit → s.phase ≠ .take → t.queue = s.queue) ∧
    (s.phase ≠ .take → t.acc = s.acc ∧ t.d0 = s.d0 ∧ t.d1 = s.d1) ∧
    (s.phase ≠ .refill → s.phase ≠ .expand → t.seeded = s.seeded ∧ t.fatal = s.fatal) ∧
    (∀ off, off < 64 → (off < 16 ∨ 40 ≤ off) → t.windowByte off = s.windowByte off)

/-! ## The register window -/

/-- R22 to R29, R67: a read of any register of the window answers its value and has no side effect. -/
def Obligations.HostReadsHaveNoSideEffect : Prop :=
  ∀ (s : State) (k : Nat) (rest : List Input),
    s.cfg.Legal → k < 8 → s.inputs = hostRead s.cfg.base k :: rest →
      step s = .next
        { s with
          inputs := rest
          response := .data
            (if k = 1 then s.arg else if k = 2 then s.result else if k = 3 then s.statusWord
             else if k = 4 then BitVec.ofNat 64 s.queue.length else if k = 6 then paramWord s.cfg else 0) }

/-- R24, R26, R67: a write to ARG stores it, a write to STATUS clears OVR when data bit 4 is 1, and writes to RESULT, QCOUNT, PARAM and
offset 0x38 are ignored. -/
def Obligations.HostWritesActOnlyWhereTheSpecSays : Prop :=
  ∀ (s : State) (k : Nat) (data : Word) (rest : List Input),
    s.cfg.Legal → 1 ≤ k → k < 8 → k ≠ 5 → s.inputs = hostWrite s.cfg.base k data :: rest →
      step s = .next
        { s with
          inputs := rest, response := .written
          arg := if k = 1 then data else s.arg
          ovr := if k = 3 ∧ data.getLsbD 4 = true then false else s.ovr }

/-- R28: a write to ABORT with bit 0 = 1 while a command runs sets ABT; any other write to it has no effect; ABORT reads 0. -/
def Obligations.AbortWriteLatchesOnlyWhileBusy : Prop :=
  (∀ s : State, s.readReg .abort = 0) ∧
  ∀ (s : State) (data : Word) (rest : List Input),
    s.cfg.Legal → s.inputs = hostWrite s.cfg.base 5 data :: rest →
      step s = .next
        { s with
          inputs := rest, response := .written
          abt := if s.phase ≠ .idle ∧ data.getLsbD 0 = true then true else s.abt }

/-- R63: any access inside the window that is not 8 bytes at a multiple of 8 gets a bus error and changes nothing, not even OVR. -/
def Obligations.NarrowOrMisalignedAccessIsRefused : Prop :=
  ∀ (s : State) (a : Access) (rest : List Input),
    s.cfg.Legal → s.cfg.base ≤ a.addr → a.addr < s.cfg.base + 64 →
    (a.size ≠ 8 ∨ (a.addr - s.cfg.base) % 8 ≠ 0) → s.inputs = .bus a :: rest →
      step s = .next { s with inputs := rest, response := .busError }

/-- R60, S7: an access outside the window is not decoded by this hardware; the model is stuck there, under a fault of its own name
(log entry 11). -/
def Obligations.AccessOutsideTheWindowIsNotDecoded : Prop :=
  ∀ (s : State) (a : Access) (rest : List Input),
    s.cfg.Legal → (a.addr < s.cfg.base ∨ s.cfg.base + 64 ≤ a.addr) → s.inputs = .bus a :: rest →
      step s = .fault .addressNotDecoded

/-- R26, R40, R41: the fields of STATUS as a host reads them; every other bit reads 0. -/
def Obligations.StatusShowsItsFields : Prop :=
  ∀ (s : State) (j : Nat),
    (s.readReg .status).getLsbD j =
      (if j = 0 then decide (s.phase ≠ .idle) else if j = 1 then s.done else if j = 2 then s.seeded
       else if j = 3 then s.fatal else if j = 4 then s.ovr
       else if 8 ≤ j ∧ j < 12 then
         (match s.err with
          | .ok => 0 | .illegalCommand => 1 | .invalidArgument => 2 | .fatalGeneration => 3 | .expandOverflow => 4
          | .notSeeded => 5 : Nat).testBit (j - 8)
       else false)

/-- The fields of PARAM, its value for the default parameters, and that a write to it is ignored.
DEDUCED, unsafe (log entry 14): for the field places and the default value R29 is followed against rows 1 and 3 of V-PARAM
and against P1 of 95_test_vectors.md, which write 0x0040105F00001000 where R29 writes 0x004000105F001000. -/
def Obligations.ParamReportsTheConfiguration : Prop :=
  (∀ s : State, s.cfg.Legal →
    let p := (s.readReg .param).toNat
    p % 2 ^ 24 = s.cfg.expDepth ∧ p / 2 ^ 24 % 2 ^ 24 = s.cfg.queueDepth ∧ p / 2 ^ 48 % 2 ^ 8 = s.cfg.aluWidth ∧
    (p / 2 ^ 56 % 2 = 1 ↔ s.cfg.modMode = .trunc) ∧ (p / 2 ^ 57 % 2 = 1 ↔ s.cfg.longCombine = .addSext) ∧
    p / 2 ^ 58 = 0 ∧
    (∀ data rest, s.inputs = hostWrite s.cfg.base 6 data :: rest →
      step s = .next { s with inputs := rest, response := .written })) ∧
  State.reset.readReg .param = 0x004000105F001000#64

/-- R64: the eight byte lanes of a register, lowest address first, are its value in little-endian order; byte j is bits 8j+7..8j. -/
def Obligations.ByteLanesAreLittleEndian : Prop :=
  ∀ (s : State) (k : Nat), k < 8 →
    wordOfBytes ((List.range 8).map fun j => s.windowByte (8 * k + j)) = (s.readReg (regAt k)).toNat ∧
    ∀ j b, j < 8 → b < 8 → (s.windowByte (8 * k + j)).getLsbD b = (s.readReg (regAt k)).getLsbD (8 * j + b)

/-! ## Rules over every step -/

/-- R47 and the invariants that keep the engine from getting stuck: every step keeps them. -/
def Obligations.EveryStepKeepsTheInvariant : Prop :=
  ∀ s t : State, Inv s → step s = .next t → Inv t

/-- From a state that meets the invariant every step answers a next state, unless the next input is an access outside the window. -/
def Obligations.InvariantStatesNeverStop : Prop :=
  ∀ s : State, Inv s → (∀ inp rest, s.inputs = inp :: rest → inp.decoded s.cfg.base = true) → ∃ t, step s = .next t

/-- R8: no step changes the configuration. -/
def Obligations.NoStepChangesTheConfiguration : Prop :=
  ∀ s t : State, step s = .next t → t.cfg = s.cfg

/-- R25: RESULT is written only by the FINISH step of a draw command that completes without error, or by reset. -/
def Obligations.ResultIsWrittenOnlyByCompletedDraws : Prop :=
  ∀ s t : State, step s = .next t → t.result ≠ s.result →
    (∃ rest, s.inputs = .rst :: rest) ∨
    (s.phase = .finish ∧ t.phase = .idle ∧ t.done = true ∧ t.err = .ok ∧ ∃ i, s.runningCommand = some i ∧
      t.result = drawResult i s.cfg s.larg s.d0 s.d1)

/-- R140: the queue changes only by EMIT, by TAKE, by a seed command and by reset. -/
def Obligations.QueueChangesOnlyByEmitTakeAndSeed : Prop :=
  ∀ s t : State, step s = .next t → t.queue ≠ s.queue →
    (s.phase = .emit ∧ t.queue = s.queue ++ s.stack) ∨
    (s.phase = .take ∧ 48 ≤ s.queue.length ∧ t.queue = s.queue.drop 48) ∨
    (t.queue = [] ∧ s.phase = .idle ∧ ∃ c rest, s.inputs = hostWrite s.cfg.base 0 c :: rest ∧ (c = 1 ∨ c = 2)) ∨
    (t.queue = [] ∧ ∃ rest, s.inputs = .rst :: rest)

/-- R30: SEED is written only by the advance of a refill, by a seed command and by reset. -/
def Obligations.SeedIsWrittenOnlyByAdvanceAndSeedCommands : Prop :=
  ∀ s t : State, step s = .next t → t.seed ≠ s.seed →
    (s.phase = .refill ∧ t.phase = .expand ∧ t.seed = 0x655F50619#64 * s.seed) ∨
    (s.phase = .idle ∧ ∃ c rest, s.inputs = hostWrite s.cfg.base 0 c :: rest ∧
      (c = 1 ∧ t.seed = s.arg ∨ c = 2 ∧ t.seed = s.tvIn ^^^ s.cfg.seedXor)) ∨
    (∃ rest, s.inputs = .rst :: rest)

/-- R41: what sets and clears SEEDED, FATAL and OVR. -/
def Obligations.StickyFlagsChangeOnlyAsStated : Prop :=
  ∀ s t : State, step s = .next t →
    (s.seeded = false → t.seeded = true →
      s.phase = .idle ∧ ∃ c rest, s.inputs = hostWrite s.cfg.base 0 c :: rest ∧ (c = 1 ∨ c = 2)) ∧
    (s.seeded = true → t.seeded = false →
      (∃ rest, s.inputs = .rst :: rest) ∨
      ((s.phase = .refill ∨ s.phase = .expand) ∧ t.fatal = true ∧
        (t.err = .fatalGeneration ∨ t.err = .expandOverflow))) ∧
    (s.fatal = false → t.fatal = true →
      (s.phase = .refill ∨ s.phase = .expand) ∧ t.seeded = false ∧
        (t.err = .fatalGeneration ∨ t.err = .expandOverflow)) ∧
    (s.fatal = true → t.fatal = false →
      (∃ rest, s.inputs = .rst :: rest) ∨
      (s.phase = .idle ∧ ∃ c rest, s.inputs = hostWrite s.cfg.base 0 c :: rest ∧ (c = 1 ∨ c = 2))) ∧
    (s.ovr = false → t.ovr = true → s.phase ≠ .idle ∧ ∃ c rest, s.inputs = hostWrite s.cfg.base 0 c :: rest) ∧
    (s.ovr = true → t.ovr = false →
      (∃ rest, s.inputs = .rst :: rest) ∨
      (∃ data rest, s.inputs = hostWrite s.cfg.base 3 data :: rest ∧ data.getLsbD 4 = true))

/-- R68, consequence 4: while a command runs and has not completed, an engine step changes nothing a host reads but QCOUNT. -/
def Obligations.OnlyQcountMovesWhileBusy : Prop :=
  ∀ (s t : State), (s.inputs = [] ∨ ∃ rest, s.inputs = .engine :: rest) → step s = .next t →
    s.phase ≠ .idle → t.phase ≠ .idle → ∀ r, r ≠ .qcount → t.readReg r = s.readReg r

/-- R30, R32, R61, R232: state that is hidden from the host stays hidden. Two states a host cannot tell apart step to two states it cannot
tell apart, with the same bus answers, or stop alike: the unspecified SEED and V of reset are never observed. -/
def Obligations.HiddenStateIsNeverObserved : Prop :=
  ∀ s t : State, Inv s → Inv t → ObservablyEqual s t →
    (∀ r, s.readReg r = t.readReg r) ∧
    (∀ s', step s = .next s' → ∃ t', step t = .next t' ∧ ObservablyEqual s' t') ∧
    (∀ f, step s = .fault f → step t = .fault f)

/-- R107: after SEED_LOAD of the same value nothing of the generator's earlier life remains: two instances that differ in queue, seed,
flags, error and every datapath register become indistinguishable. -/
def Obligations.SeedLoadErasesTheGeneratorsHistory : Prop :=
  ∀ s t : State, Inv s → Inv t → s.phase = .idle → t.phase = .idle →
    s.cfg = t.cfg → s.arg = t.arg → s.result = t.result → s.ovr = t.ovr → s.inputs = t.inputs →
    s.response = t.response → s.tvSamples = t.tvSamples → s.draws = t.draws →
      ∃ s' t', exec .seedLoad s = .next s' ∧ exec .seedLoad t = .next t' ∧ ObservablyEqual s' t'

/-! ## The seed, the expansion and the stream -/

/-- R100 to R102: the advance is a bijection of the 64-bit values with the stated inverse; only 0 advances to 0. -/
def Obligations.AdvanceIsABijection : Prop :=
  (∀ a b : Word, advanceSeed a = advanceSeed b → a = b) ∧
  (∀ a : Word, advanceSeed (a * 0x6DCD882D07D6F629#64) = a) ∧
  (∀ a : Word, advanceSeed a = 0 ↔ a = 0) ∧
  advanceSeed 1 = 0x655F50619#64

/-- R102, U9: with the degenerate seed every engine step keeps the generator degenerate, and every draw that completes returns 0. -/
def Obligations.DegenerateSeedDrawsOnlyZero : Prop :=
  ∀ s t : State, Inv s → Degenerate s → (s.inputs = [] ∨ ∃ rest, s.inputs = .engine :: rest) → step s = .next t →
    Degenerate t ∧ (s.phase = .finish → t.result = 0)

/-- R123: the trimming pass removes exactly the elements whose predecessor is odd. -/
def Obligations.TrimmingRemovesTheSuccessorsOfOddElements : Prop :=
  ∀ (n fuel v : Nat) (l : List Nat), 1 ≤ n → hail n fuel v = some l → trim l = retained false l

/-- R120 to R126: from a refill that needs bits, one REFILL step, one EXPAND step per element of the hailstone list and one EMIT step
append exactly `expand` of the advanced seed to the queue, when the retained elements fit the stack, and change nothing else but
SEED, V and PODD. -/
def Obligations.MicroStepsComputeTheExpansion : Prop :=
  ∀ (s : State) (i : Instr) (w fuel : Nat) (l : List Nat),
    s.cfg.Legal → s.inputs = [] → s.runningCommand = some i → s.phase = .refill →
    subDrawWidth i s.sub = some w → s.queue.length < 48 + w → s.abt = false →
    hail s.cfg.aluWidth fuel ((advanceSeed s.seed).toNat % 2 ^ s.cfg.aluWidth) = some l →
    (trim l).length ≤ s.cfg.expDepth →
      ∃ bits t, expandBits s.cfg.aluWidth fuel (advanceSeed s.seed).toNat = some bits ∧ 1 ≤ bits.length ∧
        runSteps (l.length + 2) s = .next t ∧
        t =
          { s with
            seed := advanceSeed s.seed, queue := s.queue ++ bits, v := t.v, podd := t.podd, stack := [],
            phase := .refill }

/-- R125, R209: an expansion with more retained elements than the stack holds ends the command with EXPAND_OVERFLOW; nothing is
appended, RESULT is unchanged, and the advance is kept. -/
def Obligations.TooLongAnExpansionOverflows : Prop :=
  ∀ (s : State) (i : Instr) (w fuel : Nat) (l : List Nat),
    s.cfg.Legal → s.inputs = [] → s.runningCommand = some i → s.phase = .refill →
    subDrawWidth i s.sub = some w → s.queue.length < 48 + w → s.abt = false →
    hail s.cfg.aluWidth fuel ((advanceSeed s.seed).toNat % 2 ^ s.cfg.aluWidth) = some l →
    s.cfg.expDepth < (trim l).length →
      ∃ k t, k ≤ l.length + 1 ∧ runSteps k s = .next t ∧
        t = failed .expandOverflow { s with seed := advanceSeed s.seed, v := t.v, podd := t.podd }

/-- R127: an expansion takes at most 2·P_EXP_DEPTH + 1 EXPAND steps; it then holds between 1 and P_EXP_DEPTH bits in EMIT, or the
command has failed. -/
def Obligations.ExpansionEndsWithinItsBound : Prop :=
  ∀ s : State, Inv s → s.inputs = [] → s.phase = .expand → s.podd = false → s.stack = [] →
    ∃ k t, 1 ≤ k ∧ k ≤ 2 * s.cfg.expDepth + 1 ∧ runSteps k s = .next t ∧
      ((t.phase = .emit ∧ 1 ≤ t.stack.length ∧ t.stack.length ≤ s.cfg.expDepth) ∨
       (t.phase = .idle ∧ t.fatal = true ∧ (t.err = .expandOverflow ∨ t.err = .fatalGeneration)))

/-- R147: every accepted command completes within its bound of engine steps. -/
def Obligations.EveryCommandCompletesWithinItsBound : Prop :=
  ∀ (s : State) (i : Instr), Inv s → Running i s → s.inputs = [] → s.phase = .refill → s.sub = 0 →
    ∃ k t, k ≤ commandBound i s.cfg ∧ runSteps k s = .next t ∧ t.phase = .idle ∧ t.done = true

/-- R145, R160: a draw that completes without error has consumed the bit stream: with B the queued bits followed by the expansions of
the seeds it advanced through, its k-th sub-draw is the k-th 48-bit window of B, its RESULT is the command's function of them, and
the queue left is B without its windows. -/
def Obligations.CompletedDrawReadsTheBitStream : Prop :=
  ∀ (s t : State) (i : Instr) (k : Nat),
    Inv s → Running i s → s.inputs = [] → s.abt = false → s.phase = .refill → s.sub = 0 →
    runSteps k s = .next t → t.phase = .idle → t.err = .ok →
      ∃ n fuel bits, streamBits s.cfg.aluWidth fuel n s.seed = some bits ∧ t.seed = seedAfter n s.seed ∧
        48 * (subDrawWidths i).length ≤ (s.queue ++ bits).length ∧
        t.queue = (s.queue ++ bits).drop (48 * (subDrawWidths i).length) ∧
        t.result = drawResult i s.cfg s.larg
          (windowValue (s.queue ++ bits) 0 ((subDrawWidths i).getD 0 0))
          (windowValue (s.queue ++ bits) 1 ((subDrawWidths i).getD 1 0))

/-- R130: if two hailstone lists end with the same elements, their expansions begin with the same bits: those of the retained elements
after the first shared one. -/
def Obligations.MergingListsShareTheirFirstBits : Prop :=
  ∀ (n fuel s1 s2 x : Nat) (pre1 pre2 shared : List Nat), 1 ≤ n →
    hail n fuel (s1 % 2 ^ n) = some (pre1 ++ x :: shared) → hail n fuel (s2 % 2 ^ n) = some (pre2 ++ x :: shared) →
      ∃ r1 r2, expandBits n fuel s1 = some ((retained (parity x) shared).reverse.map parity ++ r1) ∧
        expandBits n fuel s2 = some ((retained (parity x) shared).reverse.map parity ++ r2)

/-- R128: a power of two expands to a 1 followed by zeros, and the degenerate start 0 to a single 0. -/
def Obligations.PowersOfTwoExpandToAOneAndZeros : Prop :=
  (∀ n k fuel : Nat, k < n → k < fuel → expandBits n fuel (2 ^ k) = some (true :: List.replicate k false)) ∧
  (∀ n fuel : Nat, 0 < fuel → expandBits n fuel 0 = some [false])
end

