-- ==== Sys2Proof/Laws/Decode.lean ====
section
/-! SUPPORT. The fields of a command word as numbers, and what they are of a word built from them (R80). -/

namespace Sys2Proof

/-- A command word as a number (R80). -/
theorem commandWord_toNat (w : BitVec 6) (o : BitVec 8) : (commandWord w o).toNat = w.toNat * 256 + o.toNat := by
  have ho := o.isLt
  simp only [commandWord, BitVec.toNat_append, BitVec.toNat_ofNat]
  rw [Nat.zero_mod, Nat.zero_shiftLeft, Nat.zero_or, ← Nat.shiftLeft_add_eq_or_of_lt ho, Nat.shiftLeft_eq]

/-- OPC as a number (R80). -/
theorem opcField_toNat (c : Word) : (opcField c).toNat = c.toNat % 256 := by
  simp [opcField, BitVec.extractLsb'_toNat]

/-- W as a number (R80). -/
theorem widthField_toNat (c : Word) : (widthField c).toNat = c.toNat / 256 % 64 := by
  simp [widthField, BitVec.extractLsb'_toNat, Nat.shiftRight_eq_div_pow]

/-- RSV as a number (R80). -/
theorem reservedField_toNat (c : Word) : (reservedField c).toNat = c.toNat / 2 ^ 14 := by
  have := c.isLt
  simp only [reservedField, BitVec.extractLsb'_toNat, Nat.shiftRight_eq_div_pow]
  omega

@[simp] theorem opcField_commandWord (w : BitVec 6) (o : BitVec 8) : opcField (commandWord w o) = o := by
  apply BitVec.eq_of_toNat_eq
  have := o.isLt
  rw [opcField_toNat, commandWord_toNat]; omega

@[simp] theorem widthField_commandWord (w : BitVec 6) (o : BitVec 8) : widthField (commandWord w o) = w := by
  apply BitVec.eq_of_toNat_eq
  have := o.isLt; have := w.isLt
  rw [widthField_toNat, commandWord_toNat]; omega

@[simp] theorem reservedField_commandWord (w : BitVec 6) (o : BitVec 8) : reservedField (commandWord w o) = 0#50 := by
  apply BitVec.eq_of_toNat_eq
  have := o.isLt; have := w.isLt
  rw [reservedField_toNat, commandWord_toNat]; simp; omega

/-- A word is its two fields when the reserved field is 0 (R80). -/
theorem commandWord_fields (c : Word) (h : reservedField c = 0#50) : commandWord (widthField c) (opcField c) = c := by
  have h' := reservedField_toNat c
  rw [h] at h'
  apply BitVec.eq_of_toNat_eq
  rw [commandWord_toNat, widthField_toNat, opcField_toNat]
  simp at h'; omega

/-- What a decoded word's fields are (R82). -/
theorem decode_ok {c : Word} {i : Instr} : decode c = .ok i ↔
    reservedField c = 0#50 ∧ commandOf (opcField c) (widthField c) = some i ∧
      legalWidthFor (opcField c) (widthField c) = true := by
  unfold decode
  by_cases h : reservedField c = 0#50
  · simp only [h, ne_eq, not_true_eq_false, if_false, true_and]
    cases commandOf (opcField c) (widthField c) with
    | none => simp
    | some j => by_cases hw : legalWidthFor (opcField c) (widthField c) = true <;> simp [hw]
  · simp [h]

/-- A row found by opcode has that opcode and width, and is well-formed when the W test holds (R81, R82). -/
theorem commandOf_some {o : BitVec 8} {w : BitVec 6} {i : Instr} (h : commandOf o w = some i)
    (hw : legalWidthFor o w = true) : i.opcode = o ∧ i.width = w ∧ i.wf = true := by
  unfold commandOf at h
  split at h <;> simp only [Option.some.injEq, reduceCtorEq] at h <;> subst h <;>
    simp_all [Instr.opcode, Instr.width, Instr.wf, legalWidthFor]

theorem commandOf_opcode (i : Instr) : commandOf i.opcode i.width = some i := by
  cases i <;> rfl

theorem legalWidthFor_opcode {i : Instr} (h : i.wf = true) : legalWidthFor i.opcode i.width = true := by
  cases i <;> first | rfl | exact h

/-- Bytes and numbers (R64). -/
theorem wordOfBytes_bytesOf (n x : Nat) : wordOfBytes (bytesOf n x) = x % 256 ^ n := by
  induction n generalizing x with
  | zero => simp [bytesOf, wordOfBytes, Nat.mod_one]
  | succ n ih =>
    rw [bytesOf, wordOfBytes, ih, pow_succ, mul_comm (256 ^ n) 256, Nat.mod_mul]
    simp

@[simp] theorem length_bytesOf (n x : Nat) : (bytesOf n x).length = n := by
  induction n generalizing x with
  | zero => rfl
  | succ n ih => simp [bytesOf, ih]

end Sys2Proof
end

