-- ==== Sys2Proof/Laws/Packing.lean ====
section
/-! SUPPORT. The arithmetic of the ValueAssembler as exact numbers (R11, R160 to R165, R173). -/

namespace Sys2Proof.Machine

/-- Reading a bit vector as two's complement is signed_T of its number (R11). -/
theorem signedOf_toInt (t : Nat) (ht : 0 < t) (x : BitVec t) : x.toInt = signedOf t x.toNat := by
  have hx := x.isLt
  rw [BitVec.toInt_eq_toNat_cond]
  obtain ⟨k, rfl⟩ : ∃ k, t = k + 1 := ⟨t - 1, by omega⟩
  have : 2 ^ (k+1) = 2 * 2 ^ k := by rw [pow_succ]; omega
  simp only [signedOf, Nat.add_sub_cancel]
  split <;> split <;> first | rfl | omega

/-- signed_T of the low T bits of a register, as a number (R11, R85). -/
theorem signedLow_eq (t : Nat) (ht : 0 < t) (x : Word) : signedLow t x = signedOf t (x.toNat % 2 ^ t) := by
  rw [signedLow, signedOf_toInt t ht, BitVec.toNat_setWidth]

/-- sext_64 of the low T bits is the 64-bit pattern of their signed value (R164). -/
theorem sextLow_eq (t : Nat) (ht : 0 < t) (x : Word) : sextLow t x = BitVec.ofInt 64 (signedOf t (x.toNat % 2 ^ t)) := by
  rw [← signedLow_eq t ht, sextLow, signedLow, BitVec.signExtend]

/-- The two combinations of R173 as numbers. -/
theorem combineHalves_eq (m : LongCombine) (a b : Word) : combineHalves m a b = longOf m a b := by
  cases m
  · apply BitVec.eq_of_toNat_eq
    have h1 : b.toNat % 2 ^ 32 < 2 ^ 32 := Nat.mod_lt _ (by norm_num)
    simp only [combineHalves, longOf, BitVec.toNat_append, BitVec.toNat_setWidth, BitVec.toNat_ofNat]
    rw [← Nat.shiftLeft_add_eq_or_of_lt h1, Nat.shiftLeft_eq]; omega
  · simp only [combineHalves, longOf, sextLow_eq 32 (by norm_num)]
    generalize signedOf 32 (b.toNat % 2 ^ 32) = x
    rw [BitVec.ofInt_add]
    refine congrArg (· + BitVec.ofInt 64 x) ?_
    apply BitVec.eq_of_toNat_eq
    rw [BitVec.toNat_shiftLeft, Nat.shiftLeft_eq, BitVec.toNat_ofInt]
    omega

/-- The range of signed_T (R11). -/
theorem signedOf_range (t x : Nat) (ht : 0 < t) (hx : x < 2 ^ t) :
    -(2 ^ (t - 1) : Int) ≤ signedOf t x ∧ signedOf t x < 2 ^ (t - 1) := by
  obtain ⟨k, rfl⟩ : ∃ k, t = k + 1 := ⟨t - 1, by omega⟩
  have : (2:Nat) ^ (k+1) = 2 * 2 ^ k := by rw [pow_succ]; omega
  have : (2:Int) ^ (k+1) = 2 * 2 ^ k := by rw [pow_succ]; omega
  have h3 : ((2 ^ k : Nat) : Int) = (2 : Int) ^ k := by push_cast; rfl
  simp only [signedOf, Nat.add_sub_cancel]
  split <;> omega

/-- The wrapping absolute value differs from the exact one only at the most negative value (R11). -/
theorem absWrap_eq (t : Nat) (ht : 0 < t) (x : Int) (h1 : -(2 ^ (t - 1) : Int) ≤ x) (h2 : x < 2 ^ (t - 1)) :
    absWrap t x = if x = -(2 ^ (t - 1)) then x else (x.natAbs : Int) := by
  obtain ⟨k, rfl⟩ : ∃ k, t = k + 1 := ⟨t - 1, by omega⟩
  have e2 : (2:Int) ^ (k+1) = 2 * 2 ^ k := by rw [pow_succ]; omega
  have e1 : (2:Nat) ^ (k+1) = 2 * 2 ^ k := by rw [pow_succ]; omega
  have h3 : ((2 ^ k : Nat) : Int) = (2 : Int) ^ k := by push_cast; rfl
  have hp : (0:Int) < 2 ^ k := by positivity
  simp only [Nat.add_sub_cancel] at h1 h2 ⊢
  unfold absWrap
  split
  · rw [if_neg (by omega)]; omega
  · rw [BitVec.toInt_ofInt]
    split
    · subst x
      rw [Int.bmod_def]; push_cast; simp only [neg_neg, e2]
      generalize (2 : Int) ^ k = p at *
      rw [Int.emod_eq_of_lt (by omega) (by omega)]; split <;> omega
    · rw [show (x.natAbs : Int) = -x by omega, Int.bmod_def]; push_cast; simp only [e2]
      generalize (2 : Int) ^ k = p at *
      rw [Int.emod_eq_of_lt (by omega) (by omega)]; split <;> omega

/-- bounded_T as R165 writes it. -/
theorem bounded_eq (m : ModMode) (t x : Nat) (l : Int) (ht : 0 < t) (hx : x < 2 ^ t) :
    bounded m t (signedOf t x) l = boundedOf m t (signedOf t x) l := by
  obtain ⟨h1, h2⟩ := signedOf_range t x ht hx
  cases m <;> simp only [bounded, boundedOf, modulus, absWrap_eq t ht _ h1 h2]

/-! ### The window -/

theorem natOfBits_lt (l : List Bool) : natOfBits l < 2 ^ l.length := by
  induction l with
  | nil => simp [natOfBits]
  | cons b l ih => cases b <;> simp [natOfBits, pow_succ] <;> omega

/-- Bit i of a packed list is its i-th element (R65). -/
theorem natOfBits_testBit (l : List Bool) (j : Nat) : (natOfBits l).testBit j = l[j]?.getD false := by
  induction l generalizing j with
  | nil => simp [natOfBits]
  | cons b l ih =>
    cases j with
    | zero => cases b <;> simp [natOfBits, Nat.testBit_zero]
    | succ j =>
      have : (b.toNat + 2 * natOfBits l) / 2 = natOfBits l := by cases b <;> simp; omega
      rw [Nat.testBit_succ, natOfBits, this, ih]; simp

/-- Bit i of the accumulator is the i-th popped bit (R160, R161). -/
theorem packWindow_getLsbD (l : List Bool) {j : Nat} (hj : j < 48) : (packWindow l).getLsbD j = l[j]?.getD false := by
  rw [packWindow, BitVec.getLsbD_ofNat, natOfBits_testBit]; simp [hj]

/-- Bit j of a sub-draw value is bit 48 - w + j of the accumulator (R160). -/
theorem subDrawValue_getLsbD (a : BitVec 48) {w j : Nat} (hw : w ≤ 48) (hj : j < w) :
    (subDrawValue a w).getLsbD j = a.getLsbD (48 - w + j) := by
  simp [subDrawValue]; omega

/-- A sub-draw value of width w is below 2^w (R160). -/
theorem subDrawValue_lt (a : BitVec 48) {w : Nat} (hw : w ≤ 48) : (subDrawValue a w).toNat < 2 ^ w := by
  have ha := a.isLt
  simp only [subDrawValue, BitVec.toNat_setWidth, BitVec.toNat_ushiftRight, Nat.shiftRight_eq_div_pow]
  refine lt_of_le_of_lt (Nat.mod_le _ _) ?_
  rw [Nat.div_lt_iff_lt_mul (by positivity), ← pow_add, show w + (48 - w) = 48 by omega]; exact ha

/-- A window of zeros has value 0. -/
theorem natOfBits_zero {l : List Bool} (h : ∀ b ∈ l, b = false) : natOfBits l = 0 := by
  induction l with
  | nil => rfl
  | cons b l ih => simp [natOfBits, ih fun x hx => h x (by simp [hx]), h b (by simp)]

end Sys2Proof.Machine
end

