-- ==== Sys2Proof/Laws/State.lean ====
section
/-! SUPPORT. One lemma per field of State for each named update, so that no later proof unfolds a record update. -/

namespace Sys2Proof.Machine

variable (s : State)

/-! ### overrun -/

@[simp] theorem State.overrun_arg : (s.overrun).arg = s.arg := rfl
@[simp] theorem State.overrun_result : (s.overrun).result = s.result := rfl
@[simp] theorem State.overrun_done : (s.overrun).done = s.done := rfl
@[simp] theorem State.overrun_seeded : (s.overrun).seeded = s.seeded := rfl
@[simp] theorem State.overrun_fatal : (s.overrun).fatal = s.fatal := rfl
@[simp] theorem State.overrun_ovr : (s.overrun).ovr = true := rfl
@[simp] theorem State.overrun_err : (s.overrun).err = s.err := rfl
@[simp] theorem State.overrun_seed : (s.overrun).seed = s.seed := rfl
@[simp] theorem State.overrun_queue : (s.overrun).queue = s.queue := rfl
@[simp] theorem State.overrun_v : (s.overrun).v = s.v := rfl
@[simp] theorem State.overrun_podd : (s.overrun).podd = s.podd := rfl
@[simp] theorem State.overrun_stack : (s.overrun).stack = s.stack := rfl
@[simp] theorem State.overrun_acc : (s.overrun).acc = s.acc := rfl
@[simp] theorem State.overrun_d0 : (s.overrun).d0 = s.d0 := rfl
@[simp] theorem State.overrun_d1 : (s.overrun).d1 = s.d1 := rfl
@[simp] theorem State.overrun_lcmd : (s.overrun).lcmd = s.lcmd := rfl
@[simp] theorem State.overrun_larg : (s.overrun).larg = s.larg := rfl
@[simp] theorem State.overrun_sub : (s.overrun).sub = s.sub := rfl
@[simp] theorem State.overrun_abt : (s.overrun).abt = s.abt := rfl
@[simp] theorem State.overrun_phase : (s.overrun).phase = s.phase := rfl
@[simp] theorem State.overrun_cfg : (s.overrun).cfg = s.cfg := rfl
@[simp] theorem State.overrun_inputs : (s.overrun).inputs = s.inputs := rfl
@[simp] theorem State.overrun_response : (s.overrun).response = s.response := rfl
@[simp] theorem State.overrun_tvSamples : (s.overrun).tvSamples = s.tvSamples := rfl
@[simp] theorem State.overrun_draws : (s.overrun).draws = s.draws := rfl

/-! ### completeOk -/

@[simp] theorem State.completeOk_arg : (s.completeOk).arg = s.arg := rfl
@[simp] theorem State.completeOk_result : (s.completeOk).result = s.result := rfl
@[simp] theorem State.completeOk_done : (s.completeOk).done = true := rfl
@[simp] theorem State.completeOk_seeded : (s.completeOk).seeded = s.seeded := rfl
@[simp] theorem State.completeOk_fatal : (s.completeOk).fatal = s.fatal := rfl
@[simp] theorem State.completeOk_ovr : (s.completeOk).ovr = s.ovr := rfl
@[simp] theorem State.completeOk_err : (s.completeOk).err = .ok := rfl
@[simp] theorem State.completeOk_seed : (s.completeOk).seed = s.seed := rfl
@[simp] theorem State.completeOk_queue : (s.completeOk).queue = s.queue := rfl
@[simp] theorem State.completeOk_v : (s.completeOk).v = s.v := rfl
@[simp] theorem State.completeOk_podd : (s.completeOk).podd = s.podd := rfl
@[simp] theorem State.completeOk_stack : (s.completeOk).stack = s.stack := rfl
@[simp] theorem State.completeOk_acc : (s.completeOk).acc = s.acc := rfl
@[simp] theorem State.completeOk_d0 : (s.completeOk).d0 = s.d0 := rfl
@[simp] theorem State.completeOk_d1 : (s.completeOk).d1 = s.d1 := rfl
@[simp] theorem State.completeOk_lcmd : (s.completeOk).lcmd = s.lcmd := rfl
@[simp] theorem State.completeOk_larg : (s.completeOk).larg = s.larg := rfl
@[simp] theorem State.completeOk_sub : (s.completeOk).sub = s.sub := rfl
@[simp] theorem State.completeOk_abt : (s.completeOk).abt = false := rfl
@[simp] theorem State.completeOk_phase : (s.completeOk).phase = .idle := rfl
@[simp] theorem State.completeOk_cfg : (s.completeOk).cfg = s.cfg := rfl
@[simp] theorem State.completeOk_inputs : (s.completeOk).inputs = s.inputs := rfl
@[simp] theorem State.completeOk_response : (s.completeOk).response = s.response := rfl
@[simp] theorem State.completeOk_tvSamples : (s.completeOk).tvSamples = s.tvSamples := rfl
@[simp] theorem State.completeOk_draws : (s.completeOk).draws = s.draws := rfl

/-! ### reject -/

@[simp] theorem State.reject_arg (code : ErrCode) : (s.reject code).arg = s.arg := rfl
@[simp] theorem State.reject_result (code : ErrCode) : (s.reject code).result = s.result := rfl
@[simp] theorem State.reject_done (code : ErrCode) : (s.reject code).done = true := rfl
@[simp] theorem State.reject_seeded (code : ErrCode) : (s.reject code).seeded = s.seeded := rfl
@[simp] theorem State.reject_fatal (code : ErrCode) : (s.reject code).fatal = s.fatal := rfl
@[simp] theorem State.reject_ovr (code : ErrCode) : (s.reject code).ovr = s.ovr := rfl
@[simp] theorem State.reject_err (code : ErrCode) : (s.reject code).err = code := rfl
@[simp] theorem State.reject_seed (code : ErrCode) : (s.reject code).seed = s.seed := rfl
@[simp] theorem State.reject_queue (code : ErrCode) : (s.reject code).queue = s.queue := rfl
@[simp] theorem State.reject_v (code : ErrCode) : (s.reject code).v = s.v := rfl
@[simp] theorem State.reject_podd (code : ErrCode) : (s.reject code).podd = s.podd := rfl
@[simp] theorem State.reject_stack (code : ErrCode) : (s.reject code).stack = s.stack := rfl
@[simp] theorem State.reject_acc (code : ErrCode) : (s.reject code).acc = s.acc := rfl
@[simp] theorem State.reject_d0 (code : ErrCode) : (s.reject code).d0 = s.d0 := rfl
@[simp] theorem State.reject_d1 (code : ErrCode) : (s.reject code).d1 = s.d1 := rfl
@[simp] theorem State.reject_lcmd (code : ErrCode) : (s.reject code).lcmd = s.lcmd := rfl
@[simp] theorem State.reject_larg (code : ErrCode) : (s.reject code).larg = s.larg := rfl
@[simp] theorem State.reject_sub (code : ErrCode) : (s.reject code).sub = s.sub := rfl
@[simp] theorem State.reject_abt (code : ErrCode) : (s.reject code).abt = s.abt := rfl
@[simp] theorem State.reject_phase (code : ErrCode) : (s.reject code).phase = s.phase := rfl
@[simp] theorem State.reject_cfg (code : ErrCode) : (s.reject code).cfg = s.cfg := rfl
@[simp] theorem State.reject_inputs (code : ErrCode) : (s.reject code).inputs = s.inputs := rfl
@[simp] theorem State.reject_response (code : ErrCode) : (s.reject code).response = s.response := rfl
@[simp] theorem State.reject_tvSamples (code : ErrCode) : (s.reject code).tvSamples = s.tvSamples := rfl
@[simp] theorem State.reject_draws (code : ErrCode) : (s.reject code).draws = s.draws := rfl

/-! ### fail -/

@[simp] theorem State.fail_arg (code : ErrCode) : (s.fail code).arg = s.arg := rfl
@[simp] theorem State.fail_result (code : ErrCode) : (s.fail code).result = s.result := rfl
@[simp] theorem State.fail_done (code : ErrCode) : (s.fail code).done = true := rfl
@[simp] theorem State.fail_seeded (code : ErrCode) : (s.fail code).seeded = false := rfl
@[simp] theorem State.fail_fatal (code : ErrCode) : (s.fail code).fatal = true := rfl
@[simp] theorem State.fail_ovr (code : ErrCode) : (s.fail code).ovr = s.ovr := rfl
@[simp] theorem State.fail_err (code : ErrCode) : (s.fail code).err = code := rfl
@[simp] theorem State.fail_seed (code : ErrCode) : (s.fail code).seed = s.seed := rfl
@[simp] theorem State.fail_queue (code : ErrCode) : (s.fail code).queue = s.queue := rfl
@[simp] theorem State.fail_v (code : ErrCode) : (s.fail code).v = s.v := rfl
@[simp] theorem State.fail_podd (code : ErrCode) : (s.fail code).podd = s.podd := rfl
@[simp] theorem State.fail_stack (code : ErrCode) : (s.fail code).stack = [] := rfl
@[simp] theorem State.fail_acc (code : ErrCode) : (s.fail code).acc = s.acc := rfl
@[simp] theorem State.fail_d0 (code : ErrCode) : (s.fail code).d0 = s.d0 := rfl
@[simp] theorem State.fail_d1 (code : ErrCode) : (s.fail code).d1 = s.d1 := rfl
@[simp] theorem State.fail_lcmd (code : ErrCode) : (s.fail code).lcmd = s.lcmd := rfl
@[simp] theorem State.fail_larg (code : ErrCode) : (s.fail code).larg = s.larg := rfl
@[simp] theorem State.fail_sub (code : ErrCode) : (s.fail code).sub = s.sub := rfl
@[simp] theorem State.fail_abt (code : ErrCode) : (s.fail code).abt = false := rfl
@[simp] theorem State.fail_phase (code : ErrCode) : (s.fail code).phase = .idle := rfl
@[simp] theorem State.fail_cfg (code : ErrCode) : (s.fail code).cfg = s.cfg := rfl
@[simp] theorem State.fail_inputs (code : ErrCode) : (s.fail code).inputs = s.inputs := rfl
@[simp] theorem State.fail_response (code : ErrCode) : (s.fail code).response = s.response := rfl
@[simp] theorem State.fail_tvSamples (code : ErrCode) : (s.fail code).tvSamples = s.tvSamples := rfl
@[simp] theorem State.fail_draws (code : ErrCode) : (s.fail code).draws = s.draws := rfl

/-! ### latchCommand -/

@[simp] theorem State.latchCommand_arg (c : Word) : (s.latchCommand c).arg = s.arg := rfl
@[simp] theorem State.latchCommand_result (c : Word) : (s.latchCommand c).result = s.result := rfl
@[simp] theorem State.latchCommand_done (c : Word) : (s.latchCommand c).done = false := rfl
@[simp] theorem State.latchCommand_seeded (c : Word) : (s.latchCommand c).seeded = s.seeded := rfl
@[simp] theorem State.latchCommand_fatal (c : Word) : (s.latchCommand c).fatal = s.fatal := rfl
@[simp] theorem State.latchCommand_ovr (c : Word) : (s.latchCommand c).ovr = s.ovr := rfl
@[simp] theorem State.latchCommand_err (c : Word) : (s.latchCommand c).err = s.err := rfl
@[simp] theorem State.latchCommand_seed (c : Word) : (s.latchCommand c).seed = s.seed := rfl
@[simp] theorem State.latchCommand_queue (c : Word) : (s.latchCommand c).queue = s.queue := rfl
@[simp] theorem State.latchCommand_v (c : Word) : (s.latchCommand c).v = s.v := rfl
@[simp] theorem State.latchCommand_podd (c : Word) : (s.latchCommand c).podd = s.podd := rfl
@[simp] theorem State.latchCommand_stack (c : Word) : (s.latchCommand c).stack = s.stack := rfl
@[simp] theorem State.latchCommand_acc (c : Word) : (s.latchCommand c).acc = s.acc := rfl
@[simp] theorem State.latchCommand_d0 (c : Word) : (s.latchCommand c).d0 = s.d0 := rfl
@[simp] theorem State.latchCommand_d1 (c : Word) : (s.latchCommand c).d1 = s.d1 := rfl
@[simp] theorem State.latchCommand_lcmd (c : Word) : (s.latchCommand c).lcmd = ⟨opcField c, widthField c⟩ := rfl
@[simp] theorem State.latchCommand_larg (c : Word) : (s.latchCommand c).larg = s.arg := rfl
@[simp] theorem State.latchCommand_sub (c : Word) : (s.latchCommand c).sub = 0 := rfl
@[simp] theorem State.latchCommand_abt (c : Word) : (s.latchCommand c).abt = false := rfl
@[simp] theorem State.latchCommand_phase (c : Word) : (s.latchCommand c).phase = s.phase := rfl
@[simp] theorem State.latchCommand_cfg (c : Word) : (s.latchCommand c).cfg = s.cfg := rfl
@[simp] theorem State.latchCommand_inputs (c : Word) : (s.latchCommand c).inputs = s.inputs := rfl
@[simp] theorem State.latchCommand_response (c : Word) : (s.latchCommand c).response = s.response := rfl
@[simp] theorem State.latchCommand_tvSamples (c : Word) : (s.latchCommand c).tvSamples = s.tvSamples := rfl
@[simp] theorem State.latchCommand_draws (c : Word) : (s.latchCommand c).draws = s.draws := rfl

/-! ### construct -/

@[simp] theorem State.construct_arg (seed : Word) : (s.construct seed).arg = s.arg := rfl
@[simp] theorem State.construct_result (seed : Word) : (s.construct seed).result = s.result := rfl
@[simp] theorem State.construct_done (seed : Word) : (s.construct seed).done = true := rfl
@[simp] theorem State.construct_seeded (seed : Word) : (s.construct seed).seeded = true := rfl
@[simp] theorem State.construct_fatal (seed : Word) : (s.construct seed).fatal = false := rfl
@[simp] theorem State.construct_ovr (seed : Word) : (s.construct seed).ovr = s.ovr := rfl
@[simp] theorem State.construct_err (seed : Word) : (s.construct seed).err = .ok := rfl
@[simp] theorem State.construct_seed (seed : Word) : (s.construct seed).seed = seed := rfl
@[simp] theorem State.construct_queue (seed : Word) : (s.construct seed).queue = [] := rfl
@[simp] theorem State.construct_v (seed : Word) : (s.construct seed).v = s.v := rfl
@[simp] theorem State.construct_podd (seed : Word) : (s.construct seed).podd = s.podd := rfl
@[simp] theorem State.construct_stack (seed : Word) : (s.construct seed).stack = s.stack := rfl
@[simp] theorem State.construct_acc (seed : Word) : (s.construct seed).acc = s.acc := rfl
@[simp] theorem State.construct_d0 (seed : Word) : (s.construct seed).d0 = s.d0 := rfl
@[simp] theorem State.construct_d1 (seed : Word) : (s.construct seed).d1 = s.d1 := rfl
@[simp] theorem State.construct_lcmd (seed : Word) : (s.construct seed).lcmd = s.lcmd := rfl
@[simp] theorem State.construct_larg (seed : Word) : (s.construct seed).larg = s.larg := rfl
@[simp] theorem State.construct_sub (seed : Word) : (s.construct seed).sub = s.sub := rfl
@[simp] theorem State.construct_abt (seed : Word) : (s.construct seed).abt = false := rfl
@[simp] theorem State.construct_phase (seed : Word) : (s.construct seed).phase = .idle := rfl
@[simp] theorem State.construct_cfg (seed : Word) : (s.construct seed).cfg = s.cfg := rfl
@[simp] theorem State.construct_inputs (seed : Word) : (s.construct seed).inputs = s.inputs := rfl
@[simp] theorem State.construct_response (seed : Word) : (s.construct seed).response = s.response := rfl
@[simp] theorem State.construct_tvSamples (seed : Word) : (s.construct seed).tvSamples = s.tvSamples := rfl
@[simp] theorem State.construct_draws (seed : Word) : (s.construct seed).draws = s.draws := rfl

/-! ### startExpansion -/

@[simp] theorem State.startExpansion_arg : (s.startExpansion).arg = s.arg := rfl
@[simp] theorem State.startExpansion_result : (s.startExpansion).result = s.result := rfl
@[simp] theorem State.startExpansion_done : (s.startExpansion).done = s.done := rfl
@[simp] theorem State.startExpansion_seeded : (s.startExpansion).seeded = s.seeded := rfl
@[simp] theorem State.startExpansion_fatal : (s.startExpansion).fatal = s.fatal := rfl
@[simp] theorem State.startExpansion_ovr : (s.startExpansion).ovr = s.ovr := rfl
@[simp] theorem State.startExpansion_err : (s.startExpansion).err = s.err := rfl
@[simp] theorem State.startExpansion_seed : (s.startExpansion).seed = advanceSeed s.seed := rfl
@[simp] theorem State.startExpansion_queue : (s.startExpansion).queue = s.queue := rfl
@[simp] theorem State.startExpansion_v : (s.startExpansion).v = (advanceSeed s.seed).toNat % 2 ^ s.cfg.aluWidth := rfl
@[simp] theorem State.startExpansion_podd : (s.startExpansion).podd = false := rfl
@[simp] theorem State.startExpansion_stack : (s.startExpansion).stack = [] := rfl
@[simp] theorem State.startExpansion_acc : (s.startExpansion).acc = s.acc := rfl
@[simp] theorem State.startExpansion_d0 : (s.startExpansion).d0 = s.d0 := rfl
@[simp] theorem State.startExpansion_d1 : (s.startExpansion).d1 = s.d1 := rfl
@[simp] theorem State.startExpansion_lcmd : (s.startExpansion).lcmd = s.lcmd := rfl
@[simp] theorem State.startExpansion_larg : (s.startExpansion).larg = s.larg := rfl
@[simp] theorem State.startExpansion_sub : (s.startExpansion).sub = s.sub := rfl
@[simp] theorem State.startExpansion_abt : (s.startExpansion).abt = s.abt := rfl
@[simp] theorem State.startExpansion_phase : (s.startExpansion).phase = .expand := rfl
@[simp] theorem State.startExpansion_cfg : (s.startExpansion).cfg = s.cfg := rfl
@[simp] theorem State.startExpansion_inputs : (s.startExpansion).inputs = s.inputs := rfl
@[simp] theorem State.startExpansion_response : (s.startExpansion).response = s.response := rfl
@[simp] theorem State.startExpansion_tvSamples : (s.startExpansion).tvSamples = s.tvSamples := rfl
@[simp] theorem State.startExpansion_draws : (s.startExpansion).draws = s.draws := rfl

/-! ### pushParity -/

@[simp] theorem State.pushParity_arg : (s.pushParity).arg = s.arg := rfl
@[simp] theorem State.pushParity_result : (s.pushParity).result = s.result := rfl
@[simp] theorem State.pushParity_done : (s.pushParity).done = s.done := rfl
@[simp] theorem State.pushParity_seeded : (s.pushParity).seeded = s.seeded := rfl
@[simp] theorem State.pushParity_fatal : (s.pushParity).fatal = s.fatal := rfl
@[simp] theorem State.pushParity_ovr : (s.pushParity).ovr = s.ovr := rfl
@[simp] theorem State.pushParity_err : (s.pushParity).err = s.err := rfl
@[simp] theorem State.pushParity_seed : (s.pushParity).seed = s.seed := rfl
@[simp] theorem State.pushParity_queue : (s.pushParity).queue = s.queue := rfl
@[simp] theorem State.pushParity_v : (s.pushParity).v = s.v := rfl
@[simp] theorem State.pushParity_podd : (s.pushParity).podd = s.podd := rfl
@[simp] theorem State.pushParity_stack : (s.pushParity).stack = parity s.v :: s.stack := rfl
@[simp] theorem State.pushParity_acc : (s.pushParity).acc = s.acc := rfl
@[simp] theorem State.pushParity_d0 : (s.pushParity).d0 = s.d0 := rfl
@[simp] theorem State.pushParity_d1 : (s.pushParity).d1 = s.d1 := rfl
@[simp] theorem State.pushParity_lcmd : (s.pushParity).lcmd = s.lcmd := rfl
@[simp] theorem State.pushParity_larg : (s.pushParity).larg = s.larg := rfl
@[simp] theorem State.pushParity_sub : (s.pushParity).sub = s.sub := rfl
@[simp] theorem State.pushParity_abt : (s.pushParity).abt = s.abt := rfl
@[simp] theorem State.pushParity_phase : (s.pushParity).phase = s.phase := rfl
@[simp] theorem State.pushParity_cfg : (s.pushParity).cfg = s.cfg := rfl
@[simp] theorem State.pushParity_inputs : (s.pushParity).inputs = s.inputs := rfl
@[simp] theorem State.pushParity_response : (s.pushParity).response = s.response := rfl
@[simp] theorem State.pushParity_tvSamples : (s.pushParity).tvSamples = s.tvSamples := rfl
@[simp] theorem State.pushParity_draws : (s.pushParity).draws = s.draws := rfl

/-! ### nextElement -/

@[simp] theorem State.nextElement_arg : (s.nextElement).arg = s.arg := by unfold State.nextElement; split; rfl; split <;> rfl
@[simp] theorem State.nextElement_result : (s.nextElement).result = s.result := by unfold State.nextElement; split; rfl; split <;> rfl
@[simp] theorem State.nextElement_done : (s.nextElement).done = s.done := by unfold State.nextElement; split; rfl; split <;> rfl
@[simp] theorem State.nextElement_seeded : (s.nextElement).seeded = s.seeded := by unfold State.nextElement; split; rfl; split <;> rfl
@[simp] theorem State.nextElement_fatal : (s.nextElement).fatal = s.fatal := by unfold State.nextElement; split; rfl; split <;> rfl
@[simp] theorem State.nextElement_ovr : (s.nextElement).ovr = s.ovr := by unfold State.nextElement; split; rfl; split <;> rfl
@[simp] theorem State.nextElement_err : (s.nextElement).err = s.err := by unfold State.nextElement; split; rfl; split <;> rfl
@[simp] theorem State.nextElement_seed : (s.nextElement).seed = s.seed := by unfold State.nextElement; split; rfl; split <;> rfl
@[simp] theorem State.nextElement_queue : (s.nextElement).queue = s.queue := by unfold State.nextElement; split; rfl; split <;> rfl
@[simp] theorem State.nextElement_stack : (s.nextElement).stack = s.stack := by unfold State.nextElement; split; rfl; split <;> rfl
@[simp] theorem State.nextElement_acc : (s.nextElement).acc = s.acc := by unfold State.nextElement; split; rfl; split <;> rfl
@[simp] theorem State.nextElement_d0 : (s.nextElement).d0 = s.d0 := by unfold State.nextElement; split; rfl; split <;> rfl
@[simp] theorem State.nextElement_d1 : (s.nextElement).d1 = s.d1 := by unfold State.nextElement; split; rfl; split <;> rfl
@[simp] theorem State.nextElement_lcmd : (s.nextElement).lcmd = s.lcmd := by unfold State.nextElement; split; rfl; split <;> rfl
@[simp] theorem State.nextElement_larg : (s.nextElement).larg = s.larg := by unfold State.nextElement; split; rfl; split <;> rfl
@[simp] theorem State.nextElement_sub : (s.nextElement).sub = s.sub := by unfold State.nextElement; split; rfl; split <;> rfl
@[simp] theorem State.nextElement_abt : (s.nextElement).abt = s.abt := by unfold State.nextElement; split; rfl; split <;> rfl
@[simp] theorem State.nextElement_cfg : (s.nextElement).cfg = s.cfg := by unfold State.nextElement; split; rfl; split <;> rfl
@[simp] theorem State.nextElement_inputs : (s.nextElement).inputs = s.inputs := by unfold State.nextElement; split; rfl; split <;> rfl
@[simp] theorem State.nextElement_response : (s.nextElement).response = s.response := by unfold State.nextElement; split; rfl; split <;> rfl
@[simp] theorem State.nextElement_tvSamples : (s.nextElement).tvSamples = s.tvSamples := by unfold State.nextElement; split; rfl; split <;> rfl
@[simp] theorem State.nextElement_draws : (s.nextElement).draws = s.draws := by unfold State.nextElement; split; rfl; split <;> rfl

/-! ### emit -/

@[simp] theorem State.emit_arg : (s.emit).arg = s.arg := rfl
@[simp] theorem State.emit_result : (s.emit).result = s.result := rfl
@[simp] theorem State.emit_done : (s.emit).done = s.done := rfl
@[simp] theorem State.emit_seeded : (s.emit).seeded = s.seeded := rfl
@[simp] theorem State.emit_fatal : (s.emit).fatal = s.fatal := rfl
@[simp] theorem State.emit_ovr : (s.emit).ovr = s.ovr := rfl
@[simp] theorem State.emit_err : (s.emit).err = s.err := rfl
@[simp] theorem State.emit_seed : (s.emit).seed = s.seed := rfl
@[simp] theorem State.emit_queue : (s.emit).queue = s.queue ++ s.stack := rfl
@[simp] theorem State.emit_v : (s.emit).v = s.v := rfl
@[simp] theorem State.emit_podd : (s.emit).podd = s.podd := rfl
@[simp] theorem State.emit_stack : (s.emit).stack = [] := rfl
@[simp] theorem State.emit_acc : (s.emit).acc = s.acc := rfl
@[simp] theorem State.emit_d0 : (s.emit).d0 = s.d0 := rfl
@[simp] theorem State.emit_d1 : (s.emit).d1 = s.d1 := rfl
@[simp] theorem State.emit_lcmd : (s.emit).lcmd = s.lcmd := rfl
@[simp] theorem State.emit_larg : (s.emit).larg = s.larg := rfl
@[simp] theorem State.emit_sub : (s.emit).sub = s.sub := rfl
@[simp] theorem State.emit_abt : (s.emit).abt = s.abt := rfl
@[simp] theorem State.emit_phase : (s.emit).phase = .refill := rfl
@[simp] theorem State.emit_cfg : (s.emit).cfg = s.cfg := rfl
@[simp] theorem State.emit_inputs : (s.emit).inputs = s.inputs := rfl
@[simp] theorem State.emit_response : (s.emit).response = s.response := rfl
@[simp] theorem State.emit_tvSamples : (s.emit).tvSamples = s.tvSamples := rfl
@[simp] theorem State.emit_draws : (s.emit).draws = s.draws := rfl

/-! ### popWindow -/

@[simp] theorem State.popWindow_arg : (s.popWindow).arg = s.arg := rfl
@[simp] theorem State.popWindow_result : (s.popWindow).result = s.result := rfl
@[simp] theorem State.popWindow_done : (s.popWindow).done = s.done := rfl
@[simp] theorem State.popWindow_seeded : (s.popWindow).seeded = s.seeded := rfl
@[simp] theorem State.popWindow_fatal : (s.popWindow).fatal = s.fatal := rfl
@[simp] theorem State.popWindow_ovr : (s.popWindow).ovr = s.ovr := rfl
@[simp] theorem State.popWindow_err : (s.popWindow).err = s.err := rfl
@[simp] theorem State.popWindow_seed : (s.popWindow).seed = s.seed := rfl
@[simp] theorem State.popWindow_queue : (s.popWindow).queue = s.queue.drop 48 := rfl
@[simp] theorem State.popWindow_v : (s.popWindow).v = s.v := rfl
@[simp] theorem State.popWindow_podd : (s.popWindow).podd = s.podd := rfl
@[simp] theorem State.popWindow_stack : (s.popWindow).stack = s.stack := rfl
@[simp] theorem State.popWindow_acc : (s.popWindow).acc = packWindow (s.queue.take 48) := rfl
@[simp] theorem State.popWindow_d0 : (s.popWindow).d0 = s.d0 := rfl
@[simp] theorem State.popWindow_d1 : (s.popWindow).d1 = s.d1 := rfl
@[simp] theorem State.popWindow_lcmd : (s.popWindow).lcmd = s.lcmd := rfl
@[simp] theorem State.popWindow_larg : (s.popWindow).larg = s.larg := rfl
@[simp] theorem State.popWindow_sub : (s.popWindow).sub = s.sub := rfl
@[simp] theorem State.popWindow_abt : (s.popWindow).abt = s.abt := rfl
@[simp] theorem State.popWindow_phase : (s.popWindow).phase = s.phase := rfl
@[simp] theorem State.popWindow_cfg : (s.popWindow).cfg = s.cfg := rfl
@[simp] theorem State.popWindow_inputs : (s.popWindow).inputs = s.inputs := rfl
@[simp] theorem State.popWindow_response : (s.popWindow).response = s.response := rfl
@[simp] theorem State.popWindow_tvSamples : (s.popWindow).tvSamples = s.tvSamples := rfl
@[simp] theorem State.popWindow_draws : (s.popWindow).draws = s.draws := rfl

/-! ### setD -/

@[simp] theorem State.setD_arg (d : Word) : (s.setD d).arg = s.arg := by unfold State.setD; split <;> rfl
@[simp] theorem State.setD_result (d : Word) : (s.setD d).result = s.result := by unfold State.setD; split <;> rfl
@[simp] theorem State.setD_done (d : Word) : (s.setD d).done = s.done := by unfold State.setD; split <;> rfl
@[simp] theorem State.setD_seeded (d : Word) : (s.setD d).seeded = s.seeded := by unfold State.setD; split <;> rfl
@[simp] theorem State.setD_fatal (d : Word) : (s.setD d).fatal = s.fatal := by unfold State.setD; split <;> rfl
@[simp] theorem State.setD_ovr (d : Word) : (s.setD d).ovr = s.ovr := by unfold State.setD; split <;> rfl
@[simp] theorem State.setD_err (d : Word) : (s.setD d).err = s.err := by unfold State.setD; split <;> rfl
@[simp] theorem State.setD_seed (d : Word) : (s.setD d).seed = s.seed := by unfold State.setD; split <;> rfl
@[simp] theorem State.setD_queue (d : Word) : (s.setD d).queue = s.queue := by unfold State.setD; split <;> rfl
@[simp] theorem State.setD_v (d : Word) : (s.setD d).v = s.v := by unfold State.setD; split <;> rfl
@[simp] theorem State.setD_podd (d : Word) : (s.setD d).podd = s.podd := by unfold State.setD; split <;> rfl
@[simp] theorem State.setD_stack (d : Word) : (s.setD d).stack = s.stack := by unfold State.setD; split <;> rfl
@[simp] theorem State.setD_acc (d : Word) : (s.setD d).acc = s.acc := by unfold State.setD; split <;> rfl
@[simp] theorem State.setD_d0 (d : Word) : (s.setD d).d0 = if s.sub = 0 then d else s.d0 := by unfold State.setD; split <;> rfl
@[simp] theorem State.setD_d1 (d : Word) : (s.setD d).d1 = if s.sub = 0 then s.d1 else d := by unfold State.setD; split <;> rfl
@[simp] theorem State.setD_lcmd (d : Word) : (s.setD d).lcmd = s.lcmd := by unfold State.setD; split <;> rfl
@[simp] theorem State.setD_larg (d : Word) : (s.setD d).larg = s.larg := by unfold State.setD; split <;> rfl
@[simp] theorem State.setD_sub (d : Word) : (s.setD d).sub = s.sub := by unfold State.setD; split <;> rfl
@[simp] theorem State.setD_abt (d : Word) : (s.setD d).abt = s.abt := by unfold State.setD; split <;> rfl
@[simp] theorem State.setD_phase (d : Word) : (s.setD d).phase = s.phase := by unfold State.setD; split <;> rfl
@[simp] theorem State.setD_cfg (d : Word) : (s.setD d).cfg = s.cfg := by unfold State.setD; split <;> rfl
@[simp] theorem State.setD_inputs (d : Word) : (s.setD d).inputs = s.inputs := by unfold State.setD; split <;> rfl
@[simp] theorem State.setD_response (d : Word) : (s.setD d).response = s.response := by unfold State.setD; split <;> rfl
@[simp] theorem State.setD_tvSamples (d : Word) : (s.setD d).tvSamples = s.tvSamples := by unfold State.setD; split <;> rfl
@[simp] theorem State.setD_draws (d : Word) : (s.setD d).draws = s.draws := by unfold State.setD; split <;> rfl

/-! ### afterTake -/

@[simp] theorem State.afterTake_arg (more : Bool) : (s.afterTake more).arg = s.arg := by cases more <;> rfl
@[simp] theorem State.afterTake_result (more : Bool) : (s.afterTake more).result = s.result := by cases more <;> rfl
@[simp] theorem State.afterTake_done (more : Bool) : (s.afterTake more).done = s.done := by cases more <;> rfl
@[simp] theorem State.afterTake_seeded (more : Bool) : (s.afterTake more).seeded = s.seeded := by cases more <;> rfl
@[simp] theorem State.afterTake_fatal (more : Bool) : (s.afterTake more).fatal = s.fatal := by cases more <;> rfl
@[simp] theorem State.afterTake_ovr (more : Bool) : (s.afterTake more).ovr = s.ovr := by cases more <;> rfl
@[simp] theorem State.afterTake_err (more : Bool) : (s.afterTake more).err = s.err := by cases more <;> rfl
@[simp] theorem State.afterTake_seed (more : Bool) : (s.afterTake more).seed = s.seed := by cases more <;> rfl
@[simp] theorem State.afterTake_queue (more : Bool) : (s.afterTake more).queue = s.queue := by cases more <;> rfl
@[simp] theorem State.afterTake_v (more : Bool) : (s.afterTake more).v = s.v := by cases more <;> rfl
@[simp] theorem State.afterTake_podd (more : Bool) : (s.afterTake more).podd = s.podd := by cases more <;> rfl
@[simp] theorem State.afterTake_stack (more : Bool) : (s.afterTake more).stack = s.stack := by cases more <;> rfl
@[simp] theorem State.afterTake_acc (more : Bool) : (s.afterTake more).acc = s.acc := by cases more <;> rfl
@[simp] theorem State.afterTake_d0 (more : Bool) : (s.afterTake more).d0 = s.d0 := by cases more <;> rfl
@[simp] theorem State.afterTake_d1 (more : Bool) : (s.afterTake more).d1 = s.d1 := by cases more <;> rfl
@[simp] theorem State.afterTake_lcmd (more : Bool) : (s.afterTake more).lcmd = s.lcmd := by cases more <;> rfl
@[simp] theorem State.afterTake_larg (more : Bool) : (s.afterTake more).larg = s.larg := by cases more <;> rfl
@[simp] theorem State.afterTake_sub (more : Bool) : (s.afterTake more).sub = if more then 1 else s.sub := by cases more <;> rfl
@[simp] theorem State.afterTake_abt (more : Bool) : (s.afterTake more).abt = s.abt := by cases more <;> rfl
@[simp] theorem State.afterTake_phase (more : Bool) : (s.afterTake more).phase = if more then .refill else .finish := by cases more <;> rfl
@[simp] theorem State.afterTake_cfg (more : Bool) : (s.afterTake more).cfg = s.cfg := by cases more <;> rfl
@[simp] theorem State.afterTake_inputs (more : Bool) : (s.afterTake more).inputs = s.inputs := by cases more <;> rfl
@[simp] theorem State.afterTake_response (more : Bool) : (s.afterTake more).response = s.response := by cases more <;> rfl
@[simp] theorem State.afterTake_tvSamples (more : Bool) : (s.afterTake more).tvSamples = s.tvSamples := by cases more <;> rfl
@[simp] theorem State.afterTake_draws (more : Bool) : (s.afterTake more).draws = s.draws := by cases more <;> rfl

/-! ### finish -/

@[simp] theorem State.finish_arg (result : Word) : (s.finish result).arg = s.arg := rfl
@[simp] theorem State.finish_result (result : Word) : (s.finish result).result = result := rfl
@[simp] theorem State.finish_done (result : Word) : (s.finish result).done = true := rfl
@[simp] theorem State.finish_seeded (result : Word) : (s.finish result).seeded = s.seeded := rfl
@[simp] theorem State.finish_fatal (result : Word) : (s.finish result).fatal = s.fatal := rfl
@[simp] theorem State.finish_ovr (result : Word) : (s.finish result).ovr = s.ovr := rfl
@[simp] theorem State.finish_err (result : Word) : (s.finish result).err = .ok := rfl
@[simp] theorem State.finish_seed (result : Word) : (s.finish result).seed = s.seed := rfl
@[simp] theorem State.finish_queue (result : Word) : (s.finish result).queue = s.queue := rfl
@[simp] theorem State.finish_v (result : Word) : (s.finish result).v = s.v := rfl
@[simp] theorem State.finish_podd (result : Word) : (s.finish result).podd = s.podd := rfl
@[simp] theorem State.finish_stack (result : Word) : (s.finish result).stack = s.stack := rfl
@[simp] theorem State.finish_acc (result : Word) : (s.finish result).acc = s.acc := rfl
@[simp] theorem State.finish_d0 (result : Word) : (s.finish result).d0 = s.d0 := rfl
@[simp] theorem State.finish_d1 (result : Word) : (s.finish result).d1 = s.d1 := rfl
@[simp] theorem State.finish_lcmd (result : Word) : (s.finish result).lcmd = s.lcmd := rfl
@[simp] theorem State.finish_larg (result : Word) : (s.finish result).larg = s.larg := rfl
@[simp] theorem State.finish_sub (result : Word) : (s.finish result).sub = s.sub := rfl
@[simp] theorem State.finish_abt (result : Word) : (s.finish result).abt = false := rfl
@[simp] theorem State.finish_phase (result : Word) : (s.finish result).phase = .idle := rfl
@[simp] theorem State.finish_cfg (result : Word) : (s.finish result).cfg = s.cfg := rfl
@[simp] theorem State.finish_inputs (result : Word) : (s.finish result).inputs = s.inputs := rfl
@[simp] theorem State.finish_response (result : Word) : (s.finish result).response = s.response := rfl
@[simp] theorem State.finish_tvSamples (result : Word) : (s.finish result).tvSamples = s.tvSamples := rfl
@[simp] theorem State.finish_draws (result : Word) : (s.finish result).draws = s.draws := rfl

/-! ### tvTaken -/

@[simp] theorem State.tvTaken_arg : (s.tvTaken).arg = s.arg := by unfold State.tvTaken; split <;> rfl
@[simp] theorem State.tvTaken_result : (s.tvTaken).result = s.result := by unfold State.tvTaken; split <;> rfl
@[simp] theorem State.tvTaken_done : (s.tvTaken).done = s.done := by unfold State.tvTaken; split <;> rfl
@[simp] theorem State.tvTaken_seeded : (s.tvTaken).seeded = s.seeded := by unfold State.tvTaken; split <;> rfl
@[simp] theorem State.tvTaken_fatal : (s.tvTaken).fatal = s.fatal := by unfold State.tvTaken; split <;> rfl
@[simp] theorem State.tvTaken_ovr : (s.tvTaken).ovr = s.ovr := by unfold State.tvTaken; split <;> rfl
@[simp] theorem State.tvTaken_err : (s.tvTaken).err = s.err := by unfold State.tvTaken; split <;> rfl
@[simp] theorem State.tvTaken_seed : (s.tvTaken).seed = s.seed := by unfold State.tvTaken; split <;> rfl
@[simp] theorem State.tvTaken_queue : (s.tvTaken).queue = s.queue := by unfold State.tvTaken; split <;> rfl
@[simp] theorem State.tvTaken_v : (s.tvTaken).v = s.v := by unfold State.tvTaken; split <;> rfl
@[simp] theorem State.tvTaken_podd : (s.tvTaken).podd = s.podd := by unfold State.tvTaken; split <;> rfl
@[simp] theorem State.tvTaken_stack : (s.tvTaken).stack = s.stack := by unfold State.tvTaken; split <;> rfl
@[simp] theorem State.tvTaken_acc : (s.tvTaken).acc = s.acc := by unfold State.tvTaken; split <;> rfl
@[simp] theorem State.tvTaken_d0 : (s.tvTaken).d0 = s.d0 := by unfold State.tvTaken; split <;> rfl
@[simp] theorem State.tvTaken_d1 : (s.tvTaken).d1 = s.d1 := by unfold State.tvTaken; split <;> rfl
@[simp] theorem State.tvTaken_lcmd : (s.tvTaken).lcmd = s.lcmd := by unfold State.tvTaken; split <;> rfl
@[simp] theorem State.tvTaken_larg : (s.tvTaken).larg = s.larg := by unfold State.tvTaken; split <;> rfl
@[simp] theorem State.tvTaken_sub : (s.tvTaken).sub = s.sub := by unfold State.tvTaken; split <;> rfl
@[simp] theorem State.tvTaken_abt : (s.tvTaken).abt = s.abt := by unfold State.tvTaken; split <;> rfl
@[simp] theorem State.tvTaken_phase : (s.tvTaken).phase = s.phase := by unfold State.tvTaken; split <;> rfl
@[simp] theorem State.tvTaken_cfg : (s.tvTaken).cfg = s.cfg := by unfold State.tvTaken; split <;> rfl
@[simp] theorem State.tvTaken_inputs : (s.tvTaken).inputs = s.inputs := by unfold State.tvTaken; split <;> rfl
@[simp] theorem State.tvTaken_response : (s.tvTaken).response = s.response := by unfold State.tvTaken; split <;> rfl
@[simp] theorem State.tvTaken_tvSamples : (s.tvTaken).tvSamples = s.tvSamples.tail := by unfold State.tvTaken; split <;> simp_all
@[simp] theorem State.tvTaken_draws : (s.tvTaken).draws = if s.tvSamples = [] then s.draws + 1 else s.draws := by unfold State.tvTaken; split <;> simp_all

/-! ### writeStatus -/

@[simp] theorem State.writeStatus_arg (data : Word) : (s.writeStatus data).arg = s.arg := rfl
@[simp] theorem State.writeStatus_result (data : Word) : (s.writeStatus data).result = s.result := rfl
@[simp] theorem State.writeStatus_done (data : Word) : (s.writeStatus data).done = s.done := rfl
@[simp] theorem State.writeStatus_seeded (data : Word) : (s.writeStatus data).seeded = s.seeded := rfl
@[simp] theorem State.writeStatus_fatal (data : Word) : (s.writeStatus data).fatal = s.fatal := rfl
@[simp] theorem State.writeStatus_ovr (data : Word) : (s.writeStatus data).ovr = (s.ovr && !data.getLsbD 4) := rfl
@[simp] theorem State.writeStatus_err (data : Word) : (s.writeStatus data).err = s.err := rfl
@[simp] theorem State.writeStatus_seed (data : Word) : (s.writeStatus data).seed = s.seed := rfl
@[simp] theorem State.writeStatus_queue (data : Word) : (s.writeStatus data).queue = s.queue := rfl
@[simp] theorem State.writeStatus_v (data : Word) : (s.writeStatus data).v = s.v := rfl
@[simp] theorem State.writeStatus_podd (data : Word) : (s.writeStatus data).podd = s.podd := rfl
@[simp] theorem State.writeStatus_stack (data : Word) : (s.writeStatus data).stack = s.stack := rfl
@[simp] theorem State.writeStatus_acc (data : Word) : (s.writeStatus data).acc = s.acc := rfl
@[simp] theorem State.writeStatus_d0 (data : Word) : (s.writeStatus data).d0 = s.d0 := rfl
@[simp] theorem State.writeStatus_d1 (data : Word) : (s.writeStatus data).d1 = s.d1 := rfl
@[simp] theorem State.writeStatus_lcmd (data : Word) : (s.writeStatus data).lcmd = s.lcmd := rfl
@[simp] theorem State.writeStatus_larg (data : Word) : (s.writeStatus data).larg = s.larg := rfl
@[simp] theorem State.writeStatus_sub (data : Word) : (s.writeStatus data).sub = s.sub := rfl
@[simp] theorem State.writeStatus_abt (data : Word) : (s.writeStatus data).abt = s.abt := rfl
@[simp] theorem State.writeStatus_phase (data : Word) : (s.writeStatus data).phase = s.phase := rfl
@[simp] theorem State.writeStatus_cfg (data : Word) : (s.writeStatus data).cfg = s.cfg := rfl
@[simp] theorem State.writeStatus_inputs (data : Word) : (s.writeStatus data).inputs = s.inputs := rfl
@[simp] theorem State.writeStatus_response (data : Word) : (s.writeStatus data).response = s.response := rfl
@[simp] theorem State.writeStatus_tvSamples (data : Word) : (s.writeStatus data).tvSamples = s.tvSamples := rfl
@[simp] theorem State.writeStatus_draws (data : Word) : (s.writeStatus data).draws = s.draws := rfl

/-! ### writeAbort -/

@[simp] theorem State.writeAbort_arg (data : Word) : (s.writeAbort data).arg = s.arg := rfl
@[simp] theorem State.writeAbort_result (data : Word) : (s.writeAbort data).result = s.result := rfl
@[simp] theorem State.writeAbort_done (data : Word) : (s.writeAbort data).done = s.done := rfl
@[simp] theorem State.writeAbort_seeded (data : Word) : (s.writeAbort data).seeded = s.seeded := rfl
@[simp] theorem State.writeAbort_fatal (data : Word) : (s.writeAbort data).fatal = s.fatal := rfl
@[simp] theorem State.writeAbort_ovr (data : Word) : (s.writeAbort data).ovr = s.ovr := rfl
@[simp] theorem State.writeAbort_err (data : Word) : (s.writeAbort data).err = s.err := rfl
@[simp] theorem State.writeAbort_seed (data : Word) : (s.writeAbort data).seed = s.seed := rfl
@[simp] theorem State.writeAbort_queue (data : Word) : (s.writeAbort data).queue = s.queue := rfl
@[simp] theorem State.writeAbort_v (data : Word) : (s.writeAbort data).v = s.v := rfl
@[simp] theorem State.writeAbort_podd (data : Word) : (s.writeAbort data).podd = s.podd := rfl
@[simp] theorem State.writeAbort_stack (data : Word) : (s.writeAbort data).stack = s.stack := rfl
@[simp] theorem State.writeAbort_acc (data : Word) : (s.writeAbort data).acc = s.acc := rfl
@[simp] theorem State.writeAbort_d0 (data : Word) : (s.writeAbort data).d0 = s.d0 := rfl
@[simp] theorem State.writeAbort_d1 (data : Word) : (s.writeAbort data).d1 = s.d1 := rfl
@[simp] theorem State.writeAbort_lcmd (data : Word) : (s.writeAbort data).lcmd = s.lcmd := rfl
@[simp] theorem State.writeAbort_larg (data : Word) : (s.writeAbort data).larg = s.larg := rfl
@[simp] theorem State.writeAbort_sub (data : Word) : (s.writeAbort data).sub = s.sub := rfl
@[simp] theorem State.writeAbort_abt (data : Word) : (s.writeAbort data).abt = (s.abt || (s.busy && data.getLsbD 0)) := rfl
@[simp] theorem State.writeAbort_phase (data : Word) : (s.writeAbort data).phase = s.phase := rfl
@[simp] theorem State.writeAbort_cfg (data : Word) : (s.writeAbort data).cfg = s.cfg := rfl
@[simp] theorem State.writeAbort_inputs (data : Word) : (s.writeAbort data).inputs = s.inputs := rfl
@[simp] theorem State.writeAbort_response (data : Word) : (s.writeAbort data).response = s.response := rfl
@[simp] theorem State.writeAbort_tvSamples (data : Word) : (s.writeAbort data).tvSamples = s.tvSamples := rfl
@[simp] theorem State.writeAbort_draws (data : Word) : (s.writeAbort data).draws = s.draws := rfl

/-! ### respond -/

@[simp] theorem State.respond_arg (r : Response) : (s.respond r).arg = s.arg := rfl
@[simp] theorem State.respond_result (r : Response) : (s.respond r).result = s.result := rfl
@[simp] theorem State.respond_done (r : Response) : (s.respond r).done = s.done := rfl
@[simp] theorem State.respond_seeded (r : Response) : (s.respond r).seeded = s.seeded := rfl
@[simp] theorem State.respond_fatal (r : Response) : (s.respond r).fatal = s.fatal := rfl
@[simp] theorem State.respond_ovr (r : Response) : (s.respond r).ovr = s.ovr := rfl
@[simp] theorem State.respond_err (r : Response) : (s.respond r).err = s.err := rfl
@[simp] theorem State.respond_seed (r : Response) : (s.respond r).seed = s.seed := rfl
@[simp] theorem State.respond_queue (r : Response) : (s.respond r).queue = s.queue := rfl
@[simp] theorem State.respond_v (r : Response) : (s.respond r).v = s.v := rfl
@[simp] theorem State.respond_podd (r : Response) : (s.respond r).podd = s.podd := rfl
@[simp] theorem State.respond_stack (r : Response) : (s.respond r).stack = s.stack := rfl
@[simp] theorem State.respond_acc (r : Response) : (s.respond r).acc = s.acc := rfl
@[simp] theorem State.respond_d0 (r : Response) : (s.respond r).d0 = s.d0 := rfl
@[simp] theorem State.respond_d1 (r : Response) : (s.respond r).d1 = s.d1 := rfl
@[simp] theorem State.respond_lcmd (r : Response) : (s.respond r).lcmd = s.lcmd := rfl
@[simp] theorem State.respond_larg (r : Response) : (s.respond r).larg = s.larg := rfl
@[simp] theorem State.respond_sub (r : Response) : (s.respond r).sub = s.sub := rfl
@[simp] theorem State.respond_abt (r : Response) : (s.respond r).abt = s.abt := rfl
@[simp] theorem State.respond_phase (r : Response) : (s.respond r).phase = s.phase := rfl
@[simp] theorem State.respond_cfg (r : Response) : (s.respond r).cfg = s.cfg := rfl
@[simp] theorem State.respond_inputs (r : Response) : (s.respond r).inputs = s.inputs := rfl
@[simp] theorem State.respond_response (r : Response) : (s.respond r).response = r := rfl
@[simp] theorem State.respond_tvSamples (r : Response) : (s.respond r).tvSamples = s.tvSamples := rfl
@[simp] theorem State.respond_draws (r : Response) : (s.respond r).draws = s.draws := rfl

/-! ### rejectIllegal -/

@[simp] theorem State.rejectIllegal_arg (c : Word) : (s.rejectIllegal c).arg = s.arg := rfl
@[simp] theorem State.rejectIllegal_result (c : Word) : (s.rejectIllegal c).result = s.result := rfl
@[simp] theorem State.rejectIllegal_done (c : Word) : (s.rejectIllegal c).done = true := rfl
@[simp] theorem State.rejectIllegal_seeded (c : Word) : (s.rejectIllegal c).seeded = s.seeded := rfl
@[simp] theorem State.rejectIllegal_fatal (c : Word) : (s.rejectIllegal c).fatal = s.fatal := rfl
@[simp] theorem State.rejectIllegal_ovr (c : Word) : (s.rejectIllegal c).ovr = s.ovr := rfl
@[simp] theorem State.rejectIllegal_err (c : Word) : (s.rejectIllegal c).err = .illegalCommand := rfl
@[simp] theorem State.rejectIllegal_seed (c : Word) : (s.rejectIllegal c).seed = s.seed := rfl
@[simp] theorem State.rejectIllegal_queue (c : Word) : (s.rejectIllegal c).queue = s.queue := rfl
@[simp] theorem State.rejectIllegal_v (c : Word) : (s.rejectIllegal c).v = s.v := rfl
@[simp] theorem State.rejectIllegal_podd (c : Word) : (s.rejectIllegal c).podd = s.podd := rfl
@[simp] theorem State.rejectIllegal_stack (c : Word) : (s.rejectIllegal c).stack = s.stack := rfl
@[simp] theorem State.rejectIllegal_acc (c : Word) : (s.rejectIllegal c).acc = s.acc := rfl
@[simp] theorem State.rejectIllegal_d0 (c : Word) : (s.rejectIllegal c).d0 = s.d0 := rfl
@[simp] theorem State.rejectIllegal_d1 (c : Word) : (s.rejectIllegal c).d1 = s.d1 := rfl
@[simp] theorem State.rejectIllegal_lcmd (c : Word) : (s.rejectIllegal c).lcmd = ⟨opcField c, widthField c⟩ := rfl
@[simp] theorem State.rejectIllegal_larg (c : Word) : (s.rejectIllegal c).larg = s.arg := rfl
@[simp] theorem State.rejectIllegal_sub (c : Word) : (s.rejectIllegal c).sub = 0 := rfl
@[simp] theorem State.rejectIllegal_abt (c : Word) : (s.rejectIllegal c).abt = false := rfl
@[simp] theorem State.rejectIllegal_phase (c : Word) : (s.rejectIllegal c).phase = s.phase := rfl
@[simp] theorem State.rejectIllegal_cfg (c : Word) : (s.rejectIllegal c).cfg = s.cfg := rfl
@[simp] theorem State.rejectIllegal_inputs (c : Word) : (s.rejectIllegal c).inputs = s.inputs := rfl
@[simp] theorem State.rejectIllegal_response (c : Word) : (s.rejectIllegal c).response = s.response := rfl
@[simp] theorem State.rejectIllegal_tvSamples (c : Word) : (s.rejectIllegal c).tvSamples = s.tvSamples := rfl
@[simp] theorem State.rejectIllegal_draws (c : Word) : (s.rejectIllegal c).draws = s.draws := rfl

end Sys2Proof.Machine
end

