-- ==== Sys2Proof/Laws/Draw.lean ====
section
/-! SUPPORT. What the steps of a command can do, case by case: provers cite these and do not unfold the operations. -/

namespace Sys2Proof.Machine

/-- Two RESULT functions that agree everywhere give the same step. -/
theorem drawStep_congr {i : Instr} {f g : Word → Word → Word} {s : State} (h : ∀ a b, f a b = g a b) :
    drawStep i f s = drawStep i g s := by
  rw [funext fun a => funext (h a)]
/-- One step of a draw command is `drawStep` with the RESULT its rule gives. -/
theorem exec_draw {i : Instr} (h : isDraw i = true) (s : State) :
    exec i s = drawStep i (drawResult i s.cfg s.larg) s := by
  have e16 := fun x : Word => signedLow_eq 16 (by norm_num) x
  have e32 := fun x : Word => signedLow_eq 32 (by norm_num) x
  have e64 : ∀ x : Word, signedLow 64 x = signedOf 64 x.toNat := fun x => by
    rw [signedLow_eq 64 (by norm_num), Nat.mod_eq_of_lt x.isLt]
  have m16 := fun x : Word => Nat.mod_lt x.toNat (show 0 < 2 ^ 16 by norm_num)
  have m32 := fun x : Word => Nat.mod_lt x.toNat (show 0 < 2 ^ 32 by norm_num)
  cases i with
  | seedLoad => simp [isDraw] at h
  | seedTime => simp [isDraw] at h
  | drawBits w => rfl
  | nextBool =>
    show execNextBool s = _
    unfold execNextBool
    refine drawStep_congr fun a _ => ?_
    simp only [drawResult, ne_eq, ite_not]
  | nextByte => exact drawStep_congr fun a _ => sextLow_eq 8 (by norm_num) a
  | nextShort => exact drawStep_congr fun a _ => sextLow_eq 16 (by norm_num) a
  | nextInt => exact drawStep_congr fun a _ => sextLow_eq 32 (by norm_num) a
  | nextLong => exact drawStep_congr fun a b => combineHalves_eq _ a b
  | nextShortLim =>
    show execNextShortLim s = _
    unfold execNextShortLim
    refine drawStep_congr fun a _ => ?_
    rw [e16, e16, bounded_eq _ _ _ _ (by norm_num) (m16 a)]; rfl
  | nextIntLim =>
    show execNextIntLim s = _
    unfold execNextIntLim
    refine drawStep_congr fun a _ => ?_
    rw [e32, e32, bounded_eq _ _ _ _ (by norm_num) (m32 a)]; rfl
  | nextLongLim =>
    show execNextLongLim s = _
    unfold execNextLongLim
    refine drawStep_congr fun a b => ?_
    rw [e64, e64, combineHalves_eq, bounded_eq _ _ _ _ (by norm_num) (BitVec.isLt _)]; rfl
  | nextFloat => rfl
  | nextDouble =>
    show execNextDouble s = _
    unfold execNextDouble
    refine drawStep_congr fun a b => ?_
    rw [BitVec.toNat_shiftLeft, Nat.shiftLeft_eq]; rfl

theorem busy_eq_true {s : State} : s.busy = true ↔ s.phase ≠ .idle := by simp [State.busy]
theorem busy_eq_false {s : State} : s.busy = false ↔ s.phase = .idle := by simp [State.busy]

/-! ### The micro-steps -/

/-- Everything REFILL can do (R141). -/
theorem refill_cases (s : State) (w : Nat) :
    (48 + w ≤ s.queue.length ∧ s.refill w = { s with phase := .take }) ∨
    (s.queue.length < 48 + w ∧ s.abt = true ∧ s.refill w = s.fail .fatalGeneration) ∨
    (s.queue.length < 48 + w ∧ s.abt = false ∧ s.refill w = s.startExpansion) := by
  unfold State.refill
  by_cases h : 48 + w ≤ s.queue.length
  · exact .inl ⟨h, if_pos h⟩
  · cases ha : s.abt with
    | true => exact .inr (.inl ⟨by omega, rfl, by simp [h]⟩)
    | false => exact .inr (.inr ⟨by omega, rfl, by simp [h]⟩)

/-- Everything EXPAND can do (R125). -/
theorem expand_cases (s : State) :
    (s.abt = true ∧ s.expand = s.fail .fatalGeneration) ∨
    (s.abt = false ∧ s.podd = false ∧ s.stack.length = s.cfg.expDepth ∧ s.expand = s.fail .expandOverflow) ∨
    (s.abt = false ∧ s.podd = true ∧ s.expand = s.nextElement) ∨
    (s.abt = false ∧ s.podd = false ∧ s.stack.length ≠ s.cfg.expDepth ∧ s.expand = s.pushParity.nextElement) := by
  unfold State.expand
  cases s.abt <;> cases s.podd <;> simp
  by_cases h : s.stack.length = s.cfg.expDepth <;> simp [h]

/-- The multiply-add of R125 is 3v + 1 in N bits. -/
theorem multiplyAdd_eq (n v : Nat) : multiplyAdd n v = (3 * v + 1) % 2 ^ n := by
  simp only [multiplyAdd, addN, Nat.add_mod_mod, Nat.mod_add_mod]
  congr 1; ring

/-- The multiply-add of an odd value is even, and stays below 2^N (R123). -/
theorem multiplyAdd_even {n v : Nat} (hn : 1 ≤ n) (hv : v % 2 = 1) : multiplyAdd n v % 2 = 0 := by
  rw [multiplyAdd_eq, Nat.mod_mod_of_dvd _ (dvd_pow_self 2 (by omega))]; omega

/-- Everything the last part of EXPAND can do (R125). -/
theorem nextElement_cases (s : State) :
    (s.v ≤ 1 ∧ s.nextElement = { s with phase := .emit }) ∨
    (1 < s.v ∧ s.v % 2 = 0 ∧ s.nextElement = { s with v := s.v / 2, podd := false }) ∨
    (1 < s.v ∧ s.v % 2 = 1 ∧ s.nextElement = { s with v := (3 * s.v + 1) % 2 ^ s.cfg.aluWidth, podd := true }) := by
  unfold State.nextElement
  by_cases h : s.v ≤ 1
  · exact .inl ⟨h, if_pos h⟩
  · by_cases h2 : s.v % 2 = 0
    · exact .inr (.inl ⟨by omega, h2, by simp [h, h2, shiftDivide]⟩)
    · exact .inr (.inr ⟨by omega, by omega, by simp [h, h2, multiplyAdd_eq]⟩)

/-- Everything acceptance of a draw command can do (R44). -/
theorem acceptDraw_cases (i : Instr) (s : State) :
    (i.wf = false ∧ acceptDraw i s = (s.latchCommand (encode i)).reject .illegalCommand) ∨
    (i.wf = true ∧ s.seeded = false ∧ acceptDraw i s = (s.latchCommand (encode i)).reject .notSeeded) ∨
    (i.wf = true ∧ s.seeded = true ∧ limitRejected i s.arg = true ∧
      acceptDraw i s = (s.latchCommand (encode i)).reject .invalidArgument) ∨
    (i.wf = true ∧ s.seeded = true ∧ limitRejected i s.arg = false ∧
      acceptDraw i s = { s.latchCommand (encode i) with phase := .refill }) := by
  unfold acceptDraw
  cases i.wf <;> cases s.seeded <;> cases limitRejected i s.arg <;> simp

/-- One step of a draw command that answers a next state, phase by phase (R40). -/
inductive DrawStep (i : Instr) (f : Word → Word → Word) (s : State) : State → Prop where
  | accept : s.phase = .idle → DrawStep i f s (acceptDraw i s)
  | refill (w : Nat) : s.phase = .refill → subDrawWidth i s.sub = some w → DrawStep i f s (s.refill w)
  | expand : s.phase = .expand → DrawStep i f s s.expand
  | emit : s.phase = .emit → DrawStep i f s s.emit
  | take (w : Nat) : s.phase = .take → subDrawWidth i s.sub = some w → 48 ≤ s.queue.length →
      DrawStep i f s (s.takeSubDraw w (hasSubDrawAfter i s.sub))
  | finish : s.phase = .finish → DrawStep i f s (s.finish (f s.d0 s.d1))

theorem drawStep_inv {i : Instr} {f : Word → Word → Word} {s t : State} (h : drawStep i f s = .next t) :
    DrawStep i f s t := by
  unfold drawStep at h
  split at h
  · next hp => injection h with h; subst h; exact .accept hp
  · next hp =>
    unfold refillStep at h
    split at h
    · cases h
    · next w hw => injection h with h; subst h; exact .refill w hp hw
  · next hp => injection h with h; subst h; exact .expand hp
  · next hp => injection h with h; subst h; exact .emit hp
  · next hp =>
    unfold takeStep at h
    split at h
    · cases h
    · next w hw =>
      split at h
      · cases h
      · injection h with h; subst h; exact .take w hp hw (by omega)
  · next hp => injection h with h; subst h; exact .finish hp

/-! ### The seed commands -/

theorem seedStep_idle {i : Instr} {b : State → State} {s : State} (h : s.phase = .idle) :
    seedStep i b s = .next (b (s.latchCommand (encode i))) := by
  simp [seedStep, busy_eq_false.mpr h]

theorem seedStep_busy {i : Instr} {b : State → State} {s : State} (h : s.phase ≠ .idle) :
    seedStep i b s = .next s.overrun := by
  simp [seedStep, busy_eq_true.mpr h]

theorem runningCommand_isDraw {s : State} {i : Instr} (h : s.runningCommand = some i) : isDraw i = true := by
  unfold State.runningCommand at h
  split at h
  · split at h
    · next hd => injection h with h; exact h ▸ hd
    · cases h
  · cases h

/-- What LCMD names (R37): a well-formed draw command whose opcode and width it holds. -/
theorem runningCommand_iff {s : State} {i : Instr} : s.runningCommand = some i ↔
    isDraw i = true ∧ i.wf = true ∧ s.lcmd = ⟨i.opcode, i.width⟩ := by
  constructor
  · intro h
    have hd := runningCommand_isDraw h
    unfold State.runningCommand at h
    split at h
    · next j hj =>
      obtain rfl : j = i := by split at h <;> simp_all
      obtain ⟨-, h2, h3⟩ := decode_ok.mp hj
      obtain ⟨e1, e2, hw⟩ := commandOf_some h2 h3
      simp only [opcField_commandWord, widthField_commandWord] at e1 e2
      exact ⟨hd, hw, by rw [e1, e2]⟩
    · cases h
  · rintro ⟨h1, h2, h3⟩
    have : decode (commandWord s.lcmd.w s.lcmd.opc) = .ok i := by
      rw [h3, decode_ok]
      simp only [reservedField_commandWord, opcField_commandWord, widthField_commandWord, true_and]
      exact ⟨commandOf_opcode i, legalWidthFor_opcode h2⟩
    simp [State.runningCommand, this, h1]

/-- A sub-draw of a well-formed command is 1 to 48 bits wide (R81, R82). -/
theorem width_le {i : Instr} {k : Fin 2} {w : Nat} (hi : i.wf = true) (h : subDrawWidth i k = some w) :
    1 ≤ w ∧ w ≤ 48 := by
  have hm : w ∈ subDrawWidths i := List.mem_of_getElem? h
  cases i <;> simp [subDrawWidths, Instr.wf, legalDrawWidth] at * <;> omega

/-- TAKE, field by field (R161). -/
theorem takeSubDraw_eq (s : State) (w : Nat) (more : Bool) :
    s.takeSubDraw w more =
      { s with
        acc := packWindow (s.queue.take 48), queue := s.queue.drop 48,
        d0 := if s.sub = 0 then subDrawValue (packWindow (s.queue.take 48)) w else s.d0,
        d1 := if s.sub = 0 then s.d1 else subDrawValue (packWindow (s.queue.take 48)) w,
        sub := if more then 1 else s.sub, phase := if more then .refill else .finish } := by
  unfold State.takeSubDraw State.afterTake State.setD State.popWindow
  by_cases h : s.sub = 0 <;> cases more <;> simp [h]

end Sys2Proof.Machine
end

