-- ==== Sys2Proof/Laws/Expansion.lean ====
section
/-! SUPPORT. The hailstone list, element by element, and that more fuel changes nothing (R121, R124, R145). -/

namespace Sys2Proof.Machine

/-- Everything a hailstone list can be (R121). -/
theorem hail_cases {n fuel v : Nat} {l : List Nat} (h : hail n fuel v = some l) :
    ∃ f, fuel = f + 1 ∧
      ((v ≤ 1 ∧ l = [v]) ∨ (1 < v ∧ ∃ l', hail n f (hailstone n v) = some l' ∧ l = v :: l')) := by
  cases fuel with
  | zero => simp [hail] at h
  | succ f =>
    refine ⟨f, rfl, ?_⟩
    unfold hail at h
    by_cases hv : v ≤ 1
    · simp [hv] at h; exact .inl ⟨hv, h.symm⟩
    · simp [hv] at h
      obtain ⟨l', h1, h2⟩ := h
      exact .inr ⟨by omega, l', h1, h2.symm⟩

/-- The list starts with the start value (R121). -/
theorem hail_head {n fuel v : Nat} {l : List Nat} (h : hail n fuel v = some l) : ∃ l', l = v :: l' := by
  obtain ⟨f, _, ⟨_, h⟩ | ⟨_, l', _, h⟩⟩ := hail_cases h <;> exact ⟨_, h⟩

/-- The successor of an odd element is even (R123). -/
theorem hailstone_odd {n v : Nat} (hn : 1 ≤ n) (hv : v % 2 = 1) : hailstone n v % 2 = 0 := by
  rw [hailstone, if_neg (by omega), Nat.mod_mod_of_dvd _ (dvd_pow_self 2 (by omega))]; omega

theorem hail_mono {n f g v : Nat} {l : List Nat} (h : hail n f v = some l) (hg : f ≤ g) : hail n g v = some l := by
  induction f generalizing v l g with
  | zero => simp [hail] at h
  | succ f ih =>
    obtain ⟨g, rfl⟩ : ∃ m, g = m + 1 := ⟨g - 1, by omega⟩
    unfold hail at h ⊢
    split
    · next hv => rw [if_pos hv] at h; exact h
    · next hv =>
      rw [if_neg hv] at h
      simp at h
      obtain ⟨l', h1, h2⟩ := h
      rw [ih h1 (by omega)]; simp [h2]

theorem expandBits_mono {n f g s : Nat} {b : List Bool} (h : expandBits n f s = some b) (hg : f ≤ g) :
    expandBits n g s = some b := by
  unfold expandBits at *
  simp at h ⊢
  obtain ⟨l, h1, h2⟩ := h
  exact ⟨l, hail_mono h1 hg, h2⟩

theorem streamBits_mono {n f g k : Nat} {s : Word} {b : List Bool} (h : streamBits n f k s = some b) (hg : f ≤ g) :
    streamBits n g k s = some b := by
  induction k generalizing s b with
  | zero => simpa [streamBits] using h
  | succ k ih =>
    simp only [streamBits, Option.bind_eq_some_iff, Option.map_eq_some_iff] at h ⊢
    obtain ⟨x, h1, y, h2, h3⟩ := h
    exact ⟨x, expandBits_mono h1 hg, y, ih h2, h3⟩

end Sys2Proof.Machine
end

