-- ==== Sys2Proof/Laws/PerInstr.lean ====
section
/-! SUPPORT. Per command: its encoding is a word of its own row of spec/opcode_table.json, and of no other row (R81, R84). -/

namespace Sys2Proof.Laws

/-- The mask and match columns of the opcode table, one entry per command; DRAW_BITS leaves W out of its mask. -/
def tableRow : Instr → Word × Word
  | .seedLoad => (0xFFFFFFFFFFFFFFFF#64, 0x0000000000000001#64)
  | .seedTime => (0xFFFFFFFFFFFFFFFF#64, 0x0000000000000002#64)
  | .drawBits _ => (0xFFFFFFFFFFFFC0FF#64, 0x0000000000000010#64)
  | .nextBool => (0xFFFFFFFFFFFFFFFF#64, 0x0000000000000011#64)
  | .nextByte => (0xFFFFFFFFFFFFFFFF#64, 0x0000000000000012#64)
  | .nextShort => (0xFFFFFFFFFFFFFFFF#64, 0x0000000000000013#64)
  | .nextInt => (0xFFFFFFFFFFFFFFFF#64, 0x0000000000000014#64)
  | .nextLong => (0xFFFFFFFFFFFFFFFF#64, 0x0000000000000015#64)
  | .nextShortLim => (0xFFFFFFFFFFFFFFFF#64, 0x0000000000000016#64)
  | .nextIntLim => (0xFFFFFFFFFFFFFFFF#64, 0x0000000000000017#64)
  | .nextLongLim => (0xFFFFFFFFFFFFFFFF#64, 0x0000000000000018#64)
  | .nextFloat => (0xFFFFFFFFFFFFFFFF#64, 0x0000000000000019#64)
  | .nextDouble => (0xFFFFFFFFFFFFFFFF#64, 0x000000000000001A#64)

/-- The table's entries, one for each row. -/
def tableRows : List (Word × Word) :=
  [tableRow .seedLoad, tableRow .seedTime, tableRow (.drawBits 1), tableRow .nextBool, tableRow .nextByte,
    tableRow .nextShort, tableRow .nextInt, tableRow .nextLong, tableRow .nextShortLim, tableRow .nextIntLim,
    tableRow .nextLongLim, tableRow .nextFloat, tableRow .nextDouble]

/-- The encoding matches exactly its own row. -/
def TableRow.Statement (i : Instr) : Prop :=
  tableRows.filter (fun r => encode i &&& r.1 == r.2) = [tableRow i]

theorem TableRow.seedLoad : TableRow.Statement .seedLoad := by unfold TableRow.Statement; decide
theorem TableRow.seedTime : TableRow.Statement .seedTime := by unfold TableRow.Statement; decide
theorem TableRow.drawBits (w : BitVec 6) : TableRow.Statement (.drawBits w) := by
  unfold TableRow.Statement; revert w; decide
theorem TableRow.nextBool : TableRow.Statement .nextBool := by unfold TableRow.Statement; decide
theorem TableRow.nextByte : TableRow.Statement .nextByte := by unfold TableRow.Statement; decide
theorem TableRow.nextShort : TableRow.Statement .nextShort := by unfold TableRow.Statement; decide
theorem TableRow.nextInt : TableRow.Statement .nextInt := by unfold TableRow.Statement; decide
theorem TableRow.nextLong : TableRow.Statement .nextLong := by unfold TableRow.Statement; decide
theorem TableRow.nextShortLim : TableRow.Statement .nextShortLim := by unfold TableRow.Statement; decide
theorem TableRow.nextIntLim : TableRow.Statement .nextIntLim := by unfold TableRow.Statement; decide
theorem TableRow.nextLongLim : TableRow.Statement .nextLongLim := by unfold TableRow.Statement; decide
theorem TableRow.nextFloat : TableRow.Statement .nextFloat := by unfold TableRow.Statement; decide
theorem TableRow.nextDouble : TableRow.Statement .nextDouble := by unfold TableRow.Statement; decide

end Sys2Proof.Laws
end

