-- ==== Sys2Proof/Laws/Step.lean ====
section
/-! SUPPORT. What one step of the machine can do, case by case (R15, R68): provers cite `step_inv` and do not unfold `step`. -/

namespace Sys2Proof.Machine

/-! ### The window -/

/-- An access to offset 8k reaches the register there (R22, R62). -/
theorem selectReg_hit (base : Nat) {k : Nat} (hk : k < 8) : selectReg base (base + 8 * k) 8 = .reg (regAt k) := by
  have h1 : ¬ (base + 8 * k < base ∨ base + 64 ≤ base + 8 * k) := by omega
  have h2 : (base + 8 * k - base) = 8 * k := by omega
  unfold selectReg
  rw [if_neg h1, h2, if_neg (by omega), Nat.mul_div_cancel_left k (by norm_num)]

/-- Only an 8-byte access at offset 8k reaches a register (R62, R63). -/
theorem selectReg_reg {base addr size : Nat} {r : Reg} (h : selectReg base addr size = .reg r) :
    ∃ k, k < 8 ∧ addr = base + 8 * k ∧ size = 8 ∧ r = regAt k := by
  unfold selectReg at h
  split at h
  · cases h
  · split at h
    · cases h
    · injection h with h
      exact ⟨(addr - base) / 8, by omega, by omega, by omega, h.symm⟩

theorem regAt_cmd {k : Nat} (h : regAt k = .cmd) : k = 0 := by
  unfold regAt at h; split at h <;> simp_all

/-! ### One step of the machine -/

/-- The state a step works on when it has taken an input off the list. -/
abbrev State.withInputs (s : State) (rest : List Input) : State := { s with inputs := rest }

/-- A step of the machine that answers a next state, case by case. -/
inductive StepCase (s : State) : State → Prop where
  | engineIdle (rest : List Input) : s.inputs = rest ∨ s.inputs = .engine :: rest → s.phase = .idle →
      StepCase s (s.withInputs rest)
  | engineBusy (rest : List Input) (i : Instr) (t : State) : s.inputs = rest ∧ rest = [] ∨ s.inputs = .engine :: rest →
      s.phase ≠ .idle → s.runningCommand = some i → isDraw i = true →
      DrawStep i (drawResult i s.cfg s.larg) (s.withInputs rest) t → StepCase s t
  | reset (rest : List Input) : s.inputs = .rst :: rest → StepCase s (s.withInputs rest).resetEvent
  | busError (a : Access) (rest : List Input) : s.inputs = .bus a :: rest →
      StepCase s ((s.withInputs rest).respond .busError)
  | read (k : Nat) (rest : List Input) : k < 8 → s.inputs = hostRead s.cfg.base k :: rest →
      StepCase s ((s.withInputs rest).respond (.data (s.readReg (regAt k))))
  | write (k : Nat) (data : Word) (rest : List Input) : 1 ≤ k → k < 8 → s.inputs = hostWrite s.cfg.base k data :: rest →
      StepCase s (((s.withInputs rest).writeReg (regAt k) data).respond .written)
  | overrun (c : Word) (rest : List Input) : s.inputs = hostWrite s.cfg.base 0 c :: rest → s.phase ≠ .idle →
      StepCase s ((s.withInputs rest).respond .written).overrun
  | illegal (c : Word) (e : DecodeError) (rest : List Input) : s.inputs = hostWrite s.cfg.base 0 c :: rest →
      s.phase = .idle → decode c = .error e → StepCase s (((s.withInputs rest).respond .written).rejectIllegal c)
  | seedLoad (c : Word) (rest : List Input) : s.inputs = hostWrite s.cfg.base 0 c :: rest → s.phase = .idle →
      decode c = .ok .seedLoad →
      StepCase s ((((s.withInputs rest).respond .written).latchCommand (encode .seedLoad)).construct s.arg)
  | seedTime (c : Word) (rest : List Input) : s.inputs = hostWrite s.cfg.base 0 c :: rest → s.phase = .idle →
      decode c = .ok .seedTime →
      StepCase s ((((s.withInputs rest).respond .written).latchCommand (encode .seedTime)).tvTaken.construct
        (timeSeed s.tvIn s.cfg.seedXor))
  | draw (c : Word) (i : Instr) (rest : List Input) : s.inputs = hostWrite s.cfg.base 0 c :: rest → s.phase = .idle →
      decode c = .ok i → isDraw i = true → StepCase s (acceptDraw i ((s.withInputs rest).respond .written))

theorem engineTurn_inv {s t : State} (h : engineTurn exec s = .next t) :
    (s.phase = .idle ∧ t = s) ∨
    (s.phase ≠ .idle ∧ ∃ i, s.runningCommand = some i ∧ isDraw i = true ∧ DrawStep i (drawResult i s.cfg s.larg) s t) := by
  unfold engineTurn at h
  split at h
  · next hb =>
    split at h
    · next i hi =>
      have hd := runningCommand_isDraw hi
      rw [exec_draw hd] at h
      exact .inr ⟨busy_eq_true.mp hb, i, hi, hd, drawStep_inv h⟩
    · cases h
  · next hb =>
    injection h with h
    exact .inl ⟨busy_eq_false.mp (by simpa using hb), h.symm⟩

theorem step_legal {s t : State} (h : step s = .next t) : s.cfg.Legal := by
  unfold step stepWith at h
  split at h
  · assumption
  · cases h

theorem commandWrite_inv {s t : State} {c : Word} {rest : List Input}
    (hin : s.inputs = hostWrite s.cfg.base 0 c :: rest)
    (h : commandWrite exec c ((s.withInputs rest).respond .written) = .next t) : StepCase s t := by
  unfold commandWrite at h
  split at h
  · next hb =>
    injection h with h; subst h
    exact .overrun c rest hin (busy_eq_true.mp hb)
  · next hb =>
    have hp : s.phase = .idle := by
      by_contra hp
      exact hb (busy_eq_true.mpr hp)
    split at h
    · next i hi =>
      cases hd : isDraw i with
      | true =>
        rw [exec_draw hd] at h
        cases drawStep_inv h with
        | accept _ => exact .draw c i rest hin hp hi hd
        | refill _ h' | expand h' | emit h' | take _ h' | finish h' =>
          exact absurd (hp.symm.trans h') (by decide)
      | false =>
        cases i <;> simp only [isDraw, Bool.true_eq_false] at hd
        · rw [show exec .seedLoad _ = execSeedLoad _ from rfl, execSeedLoad, seedStep_idle (by exact hp)] at h
          injection h with h; subst h
          exact .seedLoad c rest hin hp hi
        · rw [show exec .seedTime _ = execSeedTime _ from rfl, execSeedTime, seedStep_idle (by exact hp)] at h
          injection h with h; subst h
          exact .seedTime c rest hin hp hi
    · next e he =>
      injection h with h; subst h
      exact .illegal c e rest hin hp he

/-- Everything a step of the machine can do. -/
theorem step_inv {s t : State} (h : step s = .next t) : StepCase s t := by
  have hl := step_legal h
  unfold step stepWith at h
  rw [if_pos hl] at h
  split at h
  · next hin =>
    have hs0 : s.withInputs [] = s := by rw [← hin]
    obtain ⟨hp, ht⟩ | ⟨hp, i, hi, hd, hs⟩ := engineTurn_inv h
    · have := StepCase.engineIdle (s := s) [] (.inl hin) hp
      rw [hs0] at this
      rw [ht]
      exact this
    · exact .engineBusy [] i t (.inl ⟨hin, rfl⟩) hp hi hd (by rwa [hs0])
  · next rest hin =>
    obtain ⟨hp, rfl⟩ | ⟨hp, i, hi, hd, hs⟩ := engineTurn_inv h
    · exact .engineIdle rest (.inr hin) hp
    · exact .engineBusy rest i t (.inr hin) hp hi hd hs
  · next a rest hin =>
    unfold hostAccess at h
    split at h
    · cases h
    · injection h with h; subst h; exact .busError a rest hin
    · next r hr =>
      obtain ⟨k, hk, ha, hz, rfl⟩ := selectReg_reg hr
      obtain ⟨addr, size, kind⟩ := a
      dsimp only at ha hz h hin
      subst ha hz
      unfold registerAccess at h
      split at h
      · injection h with h; subst h; exact .read k rest hk hin
      · next data =>
        split at h
        · next hr' =>
          have := regAt_cmd hr'; subst this
          exact commandWrite_inv hin h
        · next hne =>
          injection h with h; subst h
          refine .write k data rest ?_ hk hin
          rcases Nat.eq_zero_or_pos k with rfl | h0
          · exact absurd rfl hne
          · exact h0
  · next rest hin =>
    injection h with h; subst h
    exact .reset rest hin

/-! ### The step, forwards -/

/-- A step in a legal configuration takes the next input, or is the engine's turn (R15, R68). -/
theorem step_of_legal {s : State} (h : s.cfg.Legal) :
    step s = match s.inputs with
      | [] => engineTurn exec s
      | .engine :: rest => engineTurn exec (s.withInputs rest)
      | .bus a :: rest => hostAccess exec a (s.withInputs rest)
      | .rst :: rest => .next (s.withInputs rest).resetEvent := by
  unfold step stepWith
  rcases s.inputs with _ | ⟨_ | _ | _, _⟩ <;> exact if_pos h

/-- A host write at offset 8k reaches the register there. -/
theorem step_write {s : State} {k : Nat} {data : Word} {rest : List Input} (hl : s.cfg.Legal) (hk : k < 8)
    (hin : s.inputs = hostWrite s.cfg.base k data :: rest) :
    step s = registerAccess exec (regAt k) (.write data) (s.withInputs rest) := by
  rw [step_of_legal hl, hin]
  simp only [hostWrite, hostAccess, State.withInputs, selectReg_hit _ hk]

/-- A host read at offset 8k reaches the register there. -/
theorem step_read {s : State} {k : Nat} {rest : List Input} (hl : s.cfg.Legal) (hk : k < 8)
    (hin : s.inputs = hostRead s.cfg.base k :: rest) :
    step s = registerAccess exec (regAt k) .read (s.withInputs rest) := by
  rw [step_of_legal hl, hin]
  simp only [hostRead, hostAccess, State.withInputs, selectReg_hit _ hk]

/-- A CMD write is a `commandWrite`, answered as written. -/
theorem step_cmd {s : State} {c : Word} {rest : List Input} (hl : s.cfg.Legal)
    (hin : s.inputs = hostWrite s.cfg.base 0 c :: rest) :
    step s = commandWrite exec c ((s.withInputs rest).respond .written) := by
  rw [step_write hl (by norm_num) hin]; rfl

theorem commandWrite_busy {run : Instr → State → StepOutcome} {c : Word} {s : State} (h : s.phase ≠ .idle) :
    commandWrite run c s = .next s.overrun := by
  unfold commandWrite; rw [if_pos (busy_eq_true.mpr h)]

theorem commandWrite_ok {run : Instr → State → StepOutcome} {c : Word} {i : Instr} {s : State} (h : s.phase = .idle)
    (hd : decode c = .ok i) : commandWrite run c s = run i s := by
  unfold commandWrite; rw [busy_eq_false.mpr h, hd]; rfl

theorem commandWrite_error {run : Instr → State → StepOutcome} {c : Word} {e : DecodeError} {s : State}
    (h : s.phase = .idle) (hd : decode c = .error e) : commandWrite run c s = .next (s.rejectIllegal c) := by
  unfold commandWrite; rw [busy_eq_false.mpr h, hd]; rfl

theorem engineTurn_busy {run : Instr → State → StepOutcome} {s : State} {i : Instr} (h : s.phase ≠ .idle)
    (hi : s.runningCommand = some i) : engineTurn run s = run i s := by
  unfold engineTurn; rw [if_pos (busy_eq_true.mpr h), hi]

/-- With no input pending a step of a running command is its `drawStep` (R40). -/
theorem step_running {s : State} {i : Instr} (hl : s.cfg.Legal) (hin : s.inputs = []) (hp : s.phase ≠ .idle)
    (hc : s.runningCommand = some i) : step s = drawStep i (drawResult i s.cfg s.larg) s := by
  rw [step_of_legal hl, hin]; dsimp only
  rw [engineTurn_busy hp hc, exec_draw (runningCommand_isDraw hc)]

/-- Runs of several steps, taken apart. -/
theorem runSteps_succ {k : Nat} {s t : State} (h : step s = .next t) : runSteps (k + 1) s = runSteps k t := by
  simp [runSteps, h]

theorem runSteps_add {a b : Nat} {s t : State} (h : runSteps a s = .next t) : runSteps (a + b) s = runSteps b t := by
  induction a generalizing s with
  | zero => simp [runSteps] at h; subst h; simp
  | succ a ih =>
    rw [Nat.add_right_comm]
    simp only [runSteps] at h ⊢
    cases hs : step s with
    | next u => rw [hs] at h; exact ih h
    | fault f => rw [hs] at h; cases h
    | refused f => rw [hs] at h; cases h

/-- The running command is the one LCMD names. -/
theorem Running.unique {i j : Instr} {s : State} (h : Running i s) (h' : s.runningCommand = some j) : i = j := by
  have := h.command; rw [h'] at this; exact (Option.some.inj this).symm

theorem engineTurn_idle {run : Instr → State → StepOutcome} {s : State} (h : s.phase = .idle) :
    engineTurn run s = .next s := by
  unfold engineTurn; rw [busy_eq_false.mpr h]; rfl

end Sys2Proof.Machine
end

