-- ==== Sys2Proof/Tests/Slice0.lean ====
section
/-! SUPPORT. Tests of the model (expected values from the spec's rules and from spec/95_test_vectors.md), and for every statement with
hypotheses a witness: concrete states and operands that meet all of them together. -/

open Sys2Proof Sys2Proof.Machine

namespace Sys2Proof.Tests

/-! ## Well-formedness (R82) -/

theorem test_wf_draw_bits_0_is_refused : (Instr.drawBits 0).wf = false := by decide
theorem test_wf_draw_bits_49_is_refused : (Instr.drawBits 49).wf = false := by decide
theorem test_wf_draw_bits_63_is_refused : (Instr.drawBits 63).wf = false := by decide
theorem test_wf_draw_bits_1_and_48 : (Instr.drawBits 1).wf = true ∧ (Instr.drawBits 48).wf = true := by decide

/-! ## Decoding: words written out from R80 and R81 as RSV ++ W ++ OPC (R89, V-ENC) -/

theorem test_decode_seed_load : decode (0#50 ++ 0b000000#6 ++ 0b00000001#8) = .ok .seedLoad := by decide
theorem test_decode_seed_time : decode (0#50 ++ 0b000000#6 ++ 0b00000010#8) = .ok .seedTime := by decide
theorem test_decode_draw_bits_1 : decode (0#50 ++ 0b000001#6 ++ 0b00010000#8) = .ok (.drawBits 1) := by decide
theorem test_decode_draw_bits_48 : decode (0#50 ++ 0b110000#6 ++ 0b00010000#8) = .ok (.drawBits 48) := by decide
theorem test_decode_next_bool : decode (0#50 ++ 0b000000#6 ++ 0b00010001#8) = .ok .nextBool := by decide
theorem test_decode_next_byte : decode (0#50 ++ 0b000000#6 ++ 0b00010010#8) = .ok .nextByte := by decide
theorem test_decode_next_short : decode (0#50 ++ 0b000000#6 ++ 0b00010011#8) = .ok .nextShort := by decide
theorem test_decode_next_int : decode (0#50 ++ 0b000000#6 ++ 0b00010100#8) = .ok .nextInt := by decide
theorem test_decode_next_long : decode (0#50 ++ 0b000000#6 ++ 0b00010101#8) = .ok .nextLong := by decide
theorem test_decode_next_short_lim : decode (0#50 ++ 0b000000#6 ++ 0b00010110#8) = .ok .nextShortLim := by decide
theorem test_decode_next_int_lim : decode (0#50 ++ 0b000000#6 ++ 0b00010111#8) = .ok .nextIntLim := by decide
theorem test_decode_next_long_lim : decode (0#50 ++ 0b000000#6 ++ 0b00011000#8) = .ok .nextLongLim := by decide
theorem test_decode_next_float : decode (0#50 ++ 0b000000#6 ++ 0b00011001#8) = .ok .nextFloat := by decide
theorem test_decode_next_double : decode (0#50 ++ 0b000000#6 ++ 0b00011010#8) = .ok .nextDouble := by decide

/-- The illegal words of V-ENC. -/
theorem test_decode_refuses_illegal_words :
    decode 0x0000000000000010#64 = .error .widthOutOfRange ∧ decode 0x0000000000003110#64 = .error .widthOutOfRange ∧
    decode 0x0000000000003F10#64 = .error .widthOutOfRange ∧ decode 0x0000000000000114#64 = .error .widthOutOfRange ∧
    decode 0x0000000000004014#64 = .error .reservedBits ∧ decode 0x8000000000000014#64 = .error .reservedBits ∧
    decode 0x0000000000000000#64 = .error .unassignedOpcode ∧ decode 0x0000000000000003#64 = .error .unassignedOpcode ∧
    decode 0x000000000000001B#64 = .error .unassignedOpcode ∧ decode 0x00000000000000FF#64 = .error .unassignedOpcode := by
  decide

/-- A command word is eight bytes (R80), the lowest address first (R64): NEXT_INT, and DRAW_BITS 32. -/
theorem test_decode_bytes :
    decodeBytes [0x14#8, 0, 0, 0, 0, 0, 0, 0] = .ok .nextInt ∧
    decodeBytes [0x10#8, 0x20#8, 0, 0, 0, 0, 0, 0] = .ok (.drawBits 32) ∧
    decodeBytes [0x14#8, 0, 0, 0, 0, 0, 0] = .error .wrongLength ∧ decodeBytes [] = .error .wrongLength := by decide

theorem test_decode_table_word :
    decodeTableWord 64 0x1A = some .nextDouble ∧ decodeTableWord 64 0x10 = none ∧ decodeTableWord 16 0x3010 = some (.drawBits 48) := by
  decide

/-! ## A small machine -/

/-- A legal configuration: the defaults of R8, the P_SEED_XOR of R105's example. -/
def cfg : Config :=
  { aluWidth := 64, expDepth := 4096, queueDepth := 4191, seedXor := 0x0123456789ABCDEE#64, modMode := .floor,
    longCombine := .concat, base := 0x1000 }

/-- An idle, seeded machine (`seed 1` with an empty queue) with the limit 10 in ARG. -/
def idle : State := { State.resetWith cfg 1 0 with seeded := true, done := true, arg := 10 }

/-- A machine that runs command i in phase p with its last sub-draw current and the given queue. -/
def runs (i : Instr) (p : Phase) (queue : List Bool) : State :=
  { idle with
    done := false, lcmd := ⟨i.opcode, i.width⟩, larg := 10, phase := p, queue := queue,
    sub := if (subDrawWidths i).length = 2 then 1 else 0 }

/-- A machine at FINISH of command i with the given sub-draw values. -/
def atFinish (i : Instr) (d0 d1 : Word) : State := { runs i .finish [] with d0 := d0, d1 := d1 }

/-- RESULT after one step that answers a next state. -/
def resultOf (o : StepOutcome) : Option Word :=
  match o with
  | .next t => some t.result
  | .fault _ => none
  | .refused _ => none

/-- The ERR code after one step that answers a next state with DONE = 1. -/
def errOf (o : StepOutcome) : Option ErrCode :=
  match o with
  | .next t => if t.done then some t.err else none
  | .fault _ => none
  | .refused _ => none

/-! ## The commands (V-GOLD, V-ACC, V-LIM, R167 to R179) -/

/-- R104's example starts so; V-SEED. -/
theorem test_seed_load : ∃ t, exec .seedLoad { idle with queue := [true, true], fatal := true, seeded := false } = .next t ∧
    t.seed = 10 ∧ t.queue = [] ∧ t.statusWord = 0x6 := ⟨_, rfl, by decide⟩

/-- R105's example: tv_in XOR P_SEED_XOR is 1. -/
theorem test_seed_time : ∃ t, exec .seedTime { idle with tvSamples := [0x0123456789ABCDEF#64, 7] } = .next t ∧
    t.seed = 1 ∧ t.tvSamples = [7] ∧ t.statusWord = 0x6 := ⟨_, rfl, by decide⟩

theorem test_draw_bits : resultOf (exec (.drawBits 48) (atFinish (.drawBits 48) 0x9DBF3C544E11#64 0)) = some 0x9DBF3C544E11#64 := by
  decide
theorem test_draw_bits_0_is_illegal : errOf (exec (.drawBits 0) idle) = some .illegalCommand := by decide
theorem test_next_bool : resultOf (exec .nextBool (atFinish .nextBool 1 0)) = some 1 := by decide
theorem test_next_byte : resultOf (exec .nextByte (atFinish .nextByte 0x9D#64 0)) = some 0xFFFFFFFFFFFFFF9D#64 := by decide
theorem test_next_byte_positive : resultOf (exec .nextByte (atFinish .nextByte 0x7F#64 0)) = some 127 := by decide
theorem test_next_short : resultOf (exec .nextShort (atFinish .nextShort 0x8000#64 0)) = some (BitVec.ofInt 64 (-32768)) := by
  decide
theorem test_next_int : resultOf (exec .nextInt (atFinish .nextInt 0x9DBF3C54#64 0)) = some 0xFFFFFFFF9DBF3C54#64 := by decide
theorem test_next_long_concat :
    resultOf (exec .nextLong (atFinish .nextLong 0x00000001#64 0x80000000#64)) = some 0x0000000180000000#64 := by decide
theorem test_next_long_add_sext :
    resultOf (exec .nextLong { atFinish .nextLong 0x00000001#64 0x80000000#64 with cfg := { cfg with longCombine := .addSext } })
      = some 0x0000000080000000#64 := by decide
theorem test_next_short_lim :
    resultOf (exec .nextShortLim { atFinish .nextShortLim 0x9DBF#64 0 with larg := 100 }) = some 53 := by decide
theorem test_next_short_lim_trunc :
    resultOf (exec .nextShortLim { atFinish .nextShortLim 0x8000#64 0 with larg := 32767, cfg := { cfg with modMode := .trunc } })
      = some (BitVec.ofInt 64 (-1)) := by decide
theorem test_next_int_lim : resultOf (exec .nextIntLim { atFinish .nextIntLim 0x80000000#64 0 with larg := 0x10000000A#64 }) = some 2 := by
  decide
theorem test_next_int_lim_0_is_rejected : errOf (exec .nextIntLim { idle with arg := 0x100000000#64 }) = some .invalidArgument := by
  decide
theorem test_next_long_lim :
    resultOf (exec .nextLongLim { atFinish .nextLongLim 0x9DBF3C54#64 0x6EAE0AE7#64 with larg := 1000000007 }) = some 312195187 := by
  decide
theorem test_next_long_lim_min :
    resultOf (exec .nextLongLim { atFinish .nextLongLim 0x80000000#64 0 with cfg := { cfg with modMode := .trunc } })
      = some (BitVec.ofInt 64 (-8)) := by decide
theorem test_next_float : resultOf (exec .nextFloat (atFinish .nextFloat 0x9DBF3C#64 0)) = some 0x3F1DBF3C#64 := by decide
theorem test_next_float_bounds : f32bits 0 = 0 ∧ f32bits 1 = 0x33800000#32 ∧ f32bits 0xFFFFFF = 0x3F7FFFFF#32 := by decide
theorem test_next_double :
    resultOf (exec .nextDouble (atFinish .nextDouble 0x276FCF1#64 0x3757057#64)) = some 0x3FE3B7E78B757057#64 := by decide
theorem test_next_double_bounds :
    f64bits 1 = 0x3CA0000000000000#64 ∧ f64bits (2 ^ 52) = 0x3FE0000000000000#64 ∧ f64bits (2 ^ 53 - 1) = 0x3FEFFFFFFFFFFFFF#64 := by
  decide

/-! ## The stream (V-ADV, V-EXP, V-GOLD's first window) -/

theorem test_advance : advanceSeed 1 = 0x655F50619#64 ∧ advanceSeed 0x0123456789ABCDEF#64 = 0xF6E5D4BCE955B657#64 := by decide

theorem test_expand_3 : expandBits 64 8 3 = some [true, false, false, false, true, true] := by decide
theorem test_expand_wraps : expandBits 64 2 0x5555555555555555 = some [true] ∧ expandBits 64 3 0xAAAAAAAAAAAAAAAB = some [true, true] := by
  decide

/-- The first window of V-GOLD. -/
def goldWindow : List Bool :=
  ("100010000111001000101010001111001111110110111001".toList).map fun c => c == '1'

theorem test_window : packWindow goldWindow = 0x9DBF3C544E11#48 ∧ subDrawValue (packWindow goldWindow) 32 = 0x9DBF3C54#64 := by decide

/-- STATUS values of spec/95_test_vectors.md: DONE and NOT_SEEDED is 0x502, DONE, FATAL and EXPAND_OVERFLOW is 0x40A. -/
theorem test_status_values :
    ({ idle with seeded := false, err := .notSeeded } : State).statusWord = 0x502 ∧
    ({ idle with seeded := false, fatal := true, err := .expandOverflow } : State).statusWord = 0x40A := by decide

/-- R232: after reset a draw command is rejected with NOT_SEEDED, and the placed word is the one that runs. -/
theorem test_step_after_reset : errOf (step (State.reset.withFetchWord 64 0x14)) = some .notSeeded := by decide
theorem test_step_after_reset_seed_load : errOf (step (State.reset.withFetchWord 64 0x01)) = some .ok := by decide

/-! ## Witnesses: for each statement with hypotheses, states and operands that meet them -/

/-- An idle machine with the given inputs pending. -/
def withInput (i : Input) : State := { idle with inputs := [i, .engine] }

/-- A host write to offset 8k of the test machine, and a read. -/
def wr (k : Nat) (data : Word) : Input := hostWrite 0x1000 k data
def rd (k : Nat) : Input := hostRead 0x1000 k

/-- A queue of n bits 1. -/
def ones (n : Nat) : List Bool := List.replicate n true

theorem legal_cfg : cfg.Legal := by decide

/-- A running NEXT_BOOL about to refill, with 49 bits in the queue. -/
def ready : State := runs .nextBool .refill (ones 49)

/-- When NEXT_BOOL runs in a phase before FINISH. -/
theorem running_nextBool (s : State) (hc : s.runningCommand = some .nextBool) (h0 : s.sub = 0) (hs : s.seeded = true)
    (hd : s.done = false) (hp : s.phase ≠ .finish) (h1 : s.phase = .expand ∨ s.phase = .emit → s.queue.length < 49)
    (h2 : s.phase = .take → 49 ≤ s.queue.length) : Running .nextBool s where
  command := hc
  subDraw := by rw [h0]; decide
  seeded := hs
  notDone := hd
  limit := rfl
  d0Fits := fun h => by simp [subDrawsDone, hp, h0] at h
  d1Fits := fun h => by simp [subDrawsDone, hp, h0] at h
  lastSubDraw := fun h => absurd h hp
  refillNeeded := fun h w hw => by
    rw [h0] at hw
    obtain rfl : 1 = w := Option.some.inj hw
    exact h1 h
  windowReady := fun h w hw => by
    rw [h0] at hw
    obtain rfl : 1 = w := Option.some.inj hw
    exact h2 h

theorem running_ready : Running .nextBool ready :=
  running_nextBool ready (by decide) rfl rfl rfl (by decide) (by decide) (by decide)

theorem inv_idle (inputs : List Input) : Inv { idle with inputs := inputs } where
  legal := legal_cfg
  queueFits := Nat.zero_le _
  stackFits := Nat.zero_le _
  stackIdle := fun _ => rfl
  fatalUnseeded := fun h => by cases h
  valueFits := show 0 < 2 ^ 64 by decide
  abortIdle := fun _ => rfl
  oddFollower := fun h => by cases h
  firstRetained := fun h => by cases h
  emitNonempty := fun h => by cases h
  running := fun h => absurd rfl h

theorem inv_ready : Inv ready where
  legal := legal_cfg
  queueFits := by decide
  stackFits := by decide
  stackIdle := fun _ => rfl
  fatalUnseeded := fun h => by cases h
  valueFits := by decide
  abortIdle := fun h => by cases h
  oddFollower := fun h => by cases h
  firstRetained := fun h => by cases h
  emitNonempty := fun h => by cases h
  running := fun _ => ⟨.nextBool, running_ready⟩

/-- A running NEXT_BOOL at the start of an expansion. -/
def expanding : State := { runs .nextBool .expand [] with v := 3 }

theorem inv_expanding : Inv expanding where
  legal := legal_cfg
  queueFits := by decide
  stackFits := by decide
  stackIdle := fun h => by cases h
  fatalUnseeded := fun h => by cases h
  valueFits := by decide
  abortIdle := fun h => by cases h
  oddFollower := fun _ h => by cases h
  firstRetained := fun _ _ => rfl
  emitNonempty := fun h => by cases h
  running := fun _ => ⟨.nextBool, running_nextBool _ (by decide) rfl rfl rfl (by decide) (by decide) (by decide)⟩

/-- A running NEXT_BOOL with an empty queue whose advance gives 3. -/
def refilling (depth : Nat) : State :=
  { runs .nextBool .refill [] with seed := 0x496898871784E27B#64, cfg := { cfg with expDepth := depth } }

theorem witness_ResetInputGivesTheResetState :
    (withInput .rst).cfg.Legal ∧ (withInput .rst).inputs = .rst :: [.engine] := ⟨legal_cfg, rfl⟩

theorem witness_StepRunsTheWrittenCommand :
    (withInput (wr 0 0x14)).cfg.Legal ∧ (withInput (wr 0 0x14)).phase = .idle ∧ decode 0x14 = .ok .nextInt ∧
    (withInput (wr 0 0x14)).inputs = hostWrite (withInput (wr 0 0x14)).cfg.base 0 0x14 :: [.engine] :=
  ⟨legal_cfg, rfl, by decide, rfl⟩

theorem witness_EngineTurnRunsTheRunningCommand :
    (ready.cfg.Legal ∧ ready.phase ≠ .idle ∧ ready.runningCommand = some .nextBool ∧ ready.inputs = []) ∧
    (let s : State := { ready with inputs := [.engine] }
     s.cfg.Legal ∧ s.phase ≠ .idle ∧ s.runningCommand = some .nextBool ∧ s.inputs = .engine :: []) ∧
    (idle.cfg.Legal ∧ idle.phase = .idle ∧ idle.inputs = []) ∧
    ((withInput .engine).cfg.Legal ∧ (withInput .engine).phase = .idle ∧ (withInput .engine).inputs = .engine :: [.engine]) :=
  ⟨⟨legal_cfg, by decide, by decide, rfl⟩, ⟨legal_cfg, by decide, by decide, rfl⟩, ⟨legal_cfg, rfl, rfl⟩,
    ⟨legal_cfg, rfl, rfl⟩⟩

/-- Each clause at its boundary. -/
theorem witness_IllFormedConfigurationIsRefused :
    ({ cfg with queueDepth := 4190 } : Config).queueDepth < 95 + cfg.expDepth ∧
    ({ cfg with aluWidth := 63 } : Config).aluWidth < 64 ∧ 255 < ({ cfg with aluWidth := 256 } : Config).aluWidth ∧
    ({ cfg with expDepth := 0 } : Config).expDepth < 1 ∧ 2 ^ 24 - 1 < ({ cfg with expDepth := 2 ^ 24 } : Config).expDepth ∧
    2 ^ 24 - 1 < ({ cfg with queueDepth := 2 ^ 24 } : Config).queueDepth ∧ ({ cfg with base := 32 } : Config).base % 64 ≠ 0 := by
  decide

theorem witness_DecodingAnEncodingGivesTheCommand :
    (Instr.drawBits 1).wf = true ∧ (Instr.drawBits 48).wf = true ∧ Instr.nextDouble.wf = true := by decide

theorem witness_DecoderAcceptsExactlyTheLegalWords :
    decode 0x3010 = .ok (.drawBits 48) ∧ legalWord 0x3010 = true ∧ legalWord 0x3110 = false := by decide

/-- One CMD write for each outcome of R44: illegal, unseeded, bad limit, SEED_LOAD, SEED_TIME and an accepted draw. -/
theorem witness_AcceptanceFollowsTheTestsInOrder :
    (∀ c : Word, (withInput (wr 0 c)).cfg.Legal ∧ (withInput (wr 0 c)).phase = .idle ∧
      (withInput (wr 0 c)).inputs = hostWrite (withInput (wr 0 c)).cfg.base 0 c :: [.engine]) ∧
    legalWord 0x4014 = false ∧
    (legalWord 0x14 = true ∧ drawWord 0x14 = true ∧ State.reset.seeded = false) ∧
    (legalWord 0x17 = true ∧ badLimit 0x17 0x80000000 = true) ∧
    (legalWord 0x01 = true ∧ drawWord 0x01 = false ∧ badLimit 0x01 0 = false) ∧
    (legalWord 0x02 = true ∧ drawWord 0x02 = false ∧ badLimit 0x02 0 = false) ∧
    (legalWord 0x17 = true ∧ idle.seeded = true ∧ badLimit 0x17 1 = false) :=
  ⟨fun _ => ⟨legal_cfg, rfl, rfl⟩, by decide⟩

theorem witness_OverrunDropsTheCommand :
    let s : State := { ready with inputs := [wr 0 0x01] }
    s.cfg.Legal ∧ s.phase ≠ .idle ∧ s.inputs = hostWrite s.cfg.base 0 0x01 :: [] := ⟨legal_cfg, by decide, rfl⟩

theorem witness_SeedLoadConstructsTheGenerator : idle.phase = .idle ∧ ready.phase ≠ .idle := by decide

theorem witness_SeedTimeConstructsFromAnySample :
    (({ idle with tvSamples := [5] } : State).phase = .idle ∧ ({ idle with tvSamples := [5] } : State).tvSamples = 5 :: []) ∧
    (idle.phase = .idle ∧ idle.tvSamples = []) ∧ ready.phase ≠ .idle := ⟨⟨rfl, rfl⟩, ⟨rfl, rfl⟩, by decide⟩

theorem witness_DrawIsAcceptedWhenSeeded :
    isDraw .nextLongLim = true ∧ Instr.nextLongLim.wf = true ∧ idle.phase = .idle ∧ idle.seeded = true ∧
    limitRejected .nextLongLim idle.arg = false := by decide

/-- Each of the three reasons; the limit 0 and the limit -2^31. -/
theorem witness_RejectedDrawChangesOnlyTheLatches :
    isDraw (.drawBits 49) = true ∧ idle.phase = .idle ∧ (Instr.drawBits 49).wf = false ∧
    ({ idle with seeded := false } : State).seeded = false ∧ ({ idle with seeded := false } : State).phase = .idle ∧
    limitRejected .nextIntLim 0x80000000 = true ∧ limitRejected .nextShortLim 0x10000 = true := by decide

/-- The queue one bit short of its threshold and at it. -/
theorem witness_RefillTestsThenAdvances :
    isDraw .nextBool = true ∧ (runs .nextBool .refill (ones 48)).phase = .refill ∧
    subDrawWidth .nextBool (runs .nextBool .refill (ones 48)).sub = some 1 ∧ ready.phase = .refill ∧
    subDrawWidth .nextBool ready.sub = some 1 := by decide

theorem witness_ExpandVisitsOneElement : isDraw .nextBool = true ∧ expanding.phase = .expand := by decide

theorem witness_EmitAppendsTheWholeExpansion :
    isDraw .nextBool = true ∧ (runs .nextBool .emit []).phase = .emit := by decide

/-- A single sub-draw of width 48, and both sub-draws of NEXT_DOUBLE. -/
theorem witness_TakePopsTheWindow :
    (isDraw (.drawBits 48) = true ∧ (Instr.drawBits 48).wf = true ∧ (runs (.drawBits 48) .take (ones 48)).phase = .take ∧
      subDrawWidth (.drawBits 48) (runs (.drawBits 48) .take (ones 48)).sub = some 48 ∧
      48 ≤ (runs (.drawBits 48) .take (ones 48)).queue.length) ∧
    subDrawWidth .nextDouble (0 : Fin 2) = some 26 ∧
    subDrawWidth .nextDouble (runs .nextDouble .take (ones 75)).sub = some 27 := by decide

theorem witness_TakeWithoutAWindowStops :
    isDraw .nextBool = true ∧ (runs .nextBool .take (ones 47)).phase = .take ∧
    subDrawWidth .nextBool (runs .nextBool .take (ones 47)).sub = some 1 ∧
    (runs .nextBool .take (ones 47)).queue.length < 48 := by decide

theorem witness_NarrowDrawResults : (atFinish .nextByte 0x80 0).phase = .finish := rfl

theorem witness_LongDrawCombinesTheHalves :
    let s := atFinish .nextLong 0xFFFFFFFF#64 0x80000000#64
    s.phase = .finish ∧ s.d0.toNat < 2 ^ 32 ∧ s.d1.toNat < 2 ^ 32 := by decide

theorem witness_LimitedDrawResults : (atFinish .nextIntLim 0x80000000 0).phase = .finish := rfl

/-- The most negative draw of each width, with the limit 10. -/
theorem witness_LimitedDrawsStayInRange :
    (let s := atFinish .nextShortLim 0x8000#64 0
     s.phase = .finish ∧ signedOf 16 (s.d0.toNat % 2 ^ 16) = -(2 ^ 15) ∧ signedOf 16 (s.larg.toNat % 2 ^ 16) = 10) ∧
    (let s := atFinish .nextIntLim 0x80000000#64 0
     s.phase = .finish ∧ signedOf 32 (s.d0.toNat % 2 ^ 32) = -(2 ^ 31) ∧ signedOf 32 (s.larg.toNat % 2 ^ 32) = 10) ∧
    (let s := atFinish .nextLongLim 0x80000000#64 0
     s.phase = .finish ∧ signedOf 64 (longOf s.cfg.longCombine s.d0 s.d1).toNat = -(2 ^ 63) ∧ signedOf 64 s.larg.toNat = 10) := by
  decide

theorem witness_FloatDrawResults :
    let s := atFinish .nextDouble 0x3FFFFFF#64 0x7FFFFFF#64
    s.phase = .finish ∧ s.d0.toNat < 2 ^ 26 ∧ s.d1.toNat < 2 ^ 27 := by decide

theorem witness_FloatPackingsAreExact :
    (0 < 1 ∧ 1 < 2 ^ 24) ∧ (0 < 2 ^ 24 - 1 ∧ 2 ^ 24 - 1 < 2 ^ 24) ∧ (0 < 2 ^ 53 - 1 ∧ 2 ^ 53 - 1 < 2 ^ 53) := by decide

/-- A step of NEXT_BOOL in every phase. -/
theorem witness_DrawStepFrame :
    isDraw .nextBool = true ∧ (∃ t, exec .nextBool idle = .next t) ∧ (∃ t, exec .nextBool ready = .next t) ∧
    (∃ t, exec .nextBool expanding = .next t) ∧ (∃ t, exec .nextBool (runs .nextBool .emit []) = .next t) ∧
    (∃ t, exec .nextBool (runs .nextBool .take (ones 49)) = .next t) ∧ (∃ t, exec .nextBool (atFinish .nextBool 1 0) = .next t) :=
  ⟨rfl, ⟨_, rfl⟩, ⟨_, rfl⟩, ⟨_, rfl⟩, ⟨_, rfl⟩, ⟨_, rfl⟩, ⟨_, rfl⟩⟩

theorem witness_HostReadsHaveNoSideEffect :
    (withInput (rd 0)).cfg.Legal ∧ (withInput (rd 0)).inputs = hostRead (withInput (rd 0)).cfg.base 0 :: [.engine] ∧
    (withInput (rd 7)).inputs = hostRead (withInput (rd 7)).cfg.base 7 :: [.engine] := ⟨legal_cfg, rfl, rfl⟩

theorem witness_HostWritesActOnlyWhereTheSpecSays :
    (withInput (wr 1 7)).cfg.Legal ∧ (withInput (wr 1 7)).inputs = hostWrite (withInput (wr 1 7)).cfg.base 1 7 :: [.engine] ∧
    (withInput (wr 3 0x10)).inputs = hostWrite (withInput (wr 3 0x10)).cfg.base 3 0x10 :: [.engine] ∧
    (withInput (wr 7 7)).inputs = hostWrite (withInput (wr 7 7)).cfg.base 7 7 :: [.engine] := ⟨legal_cfg, rfl, rfl, rfl⟩

theorem witness_AbortWriteLatchesOnlyWhileBusy :
    (withInput (wr 5 1)).cfg.Legal ∧ (withInput (wr 5 1)).inputs = hostWrite (withInput (wr 5 1)).cfg.base 5 1 :: [.engine] :=
  ⟨legal_cfg, rfl⟩

/-- A 4-byte access at the first offset, and an 8-byte access at offset 63. -/
theorem witness_NarrowOrMisalignedAccessIsRefused :
    (let a : Access := ⟨0x1000, 4, .read⟩
     (withInput (.bus a)).cfg.Legal ∧ cfg.base ≤ a.addr ∧ a.addr < cfg.base + 64 ∧ a.size ≠ 8 ∧
       (withInput (.bus a)).inputs = .bus a :: [.engine]) ∧
    (let a : Access := ⟨0x103F, 8, .write 1⟩
     cfg.base ≤ a.addr ∧ a.addr < cfg.base + 64 ∧ (a.addr - cfg.base) % 8 ≠ 0 ∧
       (withInput (.bus a)).inputs = .bus a :: [.engine]) := by decide

/-- The address just below the window, and the one just above it. -/
theorem witness_AccessOutsideTheWindowIsNotDecoded :
    (let a : Access := ⟨0xFF8, 8, .read⟩
     (withInput (.bus a)).cfg.Legal ∧ a.addr < cfg.base ∧ (withInput (.bus a)).inputs = .bus a :: [.engine]) ∧
    (let a : Access := ⟨0x1040, 8, .read⟩
     cfg.base + 64 ≤ a.addr ∧ (withInput (.bus a)).inputs = .bus a :: [.engine]) := by decide

theorem witness_ParamReportsTheConfiguration :
    (withInput (wr 6 7)).cfg.Legal ∧ (withInput (wr 6 7)).inputs = hostWrite (withInput (wr 6 7)).cfg.base 6 7 :: [.engine] :=
  ⟨legal_cfg, rfl⟩

/-- The first and the last register, byte and bit. -/
theorem witness_ByteLanesAreLittleEndian : (0 < 8 ∧ 7 < 8) ∧ ({ idle with arg := 0x0123456789ABCDEF#64 } : State).windowByte 8 = 0xEF#8 := by
  decide

theorem witness_EveryStepKeepsTheInvariant : Inv ready ∧ ∃ t, step ready = .next t := ⟨inv_ready, _, rfl⟩

theorem witness_InvariantStatesNeverStop :
    Inv (withInput (wr 0 0x14)) ∧
    (∀ inp rest, (withInput (wr 0 0x14)).inputs = inp :: rest → inp.decoded (withInput (wr 0 0x14)).cfg.base = true) :=
  ⟨inv_idle _, fun inp rest h => by obtain ⟨rfl, -⟩ := List.cons.inj h; rfl⟩

theorem witness_NoStepChangesTheConfiguration : ∃ t, step ready = .next t := ⟨_, rfl⟩

theorem witness_ResultIsWrittenOnlyByCompletedDraws :
    (∃ t, step (atFinish .nextBool 1 0) = .next t ∧ t.result ≠ (atFinish .nextBool 1 0).result) ∧
    (∃ t, step { withInput .rst with result := 5 } = .next t ∧ t.result ≠ 5) := ⟨⟨_, rfl, by decide⟩, ⟨_, rfl, by decide⟩⟩

/-- EMIT, TAKE, a seed command and reset change the queue. -/
theorem witness_QueueChangesOnlyByEmitTakeAndSeed :
    (∃ t, step { runs .nextBool .emit [] with stack := [true] } = .next t ∧ t.queue ≠ []) ∧
    (∃ t, step (runs .nextBool .take (ones 49)) = .next t ∧ t.queue ≠ ones 49) ∧
    (∃ t, step { withInput (wr 0 0x01) with queue := [true] } = .next t ∧ t.queue ≠ [true]) ∧
    (∃ t, step { withInput .rst with queue := [true] } = .next t ∧ t.queue ≠ [true]) :=
  ⟨⟨_, rfl, by decide⟩, ⟨_, rfl, by decide⟩, ⟨_, rfl, by decide⟩, ⟨_, rfl, by decide⟩⟩

/-- The advance and the two seed commands change SEED. -/
theorem witness_SeedIsWrittenOnlyByAdvanceAndSeedCommands :
    (∃ t, step (refilling 6) = .next t ∧ t.seed ≠ (refilling 6).seed) ∧
    (∃ t, step (withInput (wr 0 0x01)) = .next t ∧ t.seed ≠ (withInput (wr 0 0x01)).seed) ∧
    (∃ t, step { withInput (wr 0 0x02) with tvSamples := [5] } = .next t ∧ t.seed ≠ (withInput (wr 0 0x02)).seed) :=
  ⟨⟨_, rfl, by decide⟩, ⟨_, rfl, by decide⟩, ⟨_, rfl, by decide⟩⟩

/-- Each of the six changes happens: SEEDED and FATAL by a seed command, by an overflow and by an abort, OVR by an overrun and by a
STATUS write. -/
theorem witness_StickyFlagsChangeOnlyAsStated :
    (∃ t, step { withInput (wr 0 0x01) with seeded := false, fatal := true } = .next t ∧ t.seeded = true ∧ t.fatal = false) ∧
    (∃ t, step { expanding with cfg := { cfg with expDepth := 1 }, stack := [true] } = .next t ∧ t.seeded = false ∧ t.fatal = true) ∧
    (∃ t, step { refilling 6 with abt := true } = .next t ∧ t.seeded = false ∧ t.fatal = true) ∧
    (∃ t, step { ready with inputs := [wr 0 0x01] } = .next t ∧ ready.ovr = false ∧ t.ovr = true) ∧
    (∃ t, step { withInput (wr 3 0x10) with ovr := true } = .next t ∧ t.ovr = false) :=
  ⟨⟨_, rfl, by decide⟩, ⟨_, rfl, by decide⟩, ⟨_, rfl, by decide⟩, ⟨_, rfl, by decide⟩, ⟨_, rfl, by decide⟩⟩

theorem witness_OnlyQcountMovesWhileBusy :
    (runs .nextBool .take (ones 49)).inputs = [] ∧ (runs .nextBool .take (ones 49)).phase ≠ .idle ∧
    (∃ t, step (runs .nextBool .take (ones 49)) = .next t ∧ t.phase ≠ .idle) ∧ Reg.status ≠ .qcount :=
  ⟨rfl, by decide, ⟨_, rfl, by decide⟩, by decide⟩

/-- Two unseeded machines that differ in SEED, V, ACC, D0 and LCMD, all hidden, with a draw command pending. -/
theorem witness_HiddenStateIsNeverObserved :
    let s : State := { withInput (wr 0 0x14) with seeded := false }
    let t : State := { s with seed := 77, v := 9, acc := 3, d0 := 4, lcmd := ⟨0x14, 0⟩ }
    Inv s ∧ Inv t ∧ s ≠ t ∧ ObservablyEqual s t := by
  refine ⟨?_, ?_, by decide, ?_⟩
  · obtain ⟨a, b, c, d, _, f, g, h, i, j, _⟩ := inv_idle [wr 0 0x14, .engine]
    exact ⟨a, b, c, d, fun _ => rfl, f, g, h, i, j, fun h => absurd rfl h⟩
  · obtain ⟨a, b, c, d, _, _, g, _, i, j, _⟩ := inv_idle [wr 0 0x14, .engine]
    exact ⟨a, b, c, d, fun _ => rfl, by decide, g, nofun, i, j, fun h => absurd rfl h⟩
  · constructor <;> first | rfl | (intro h; first | cases h | exact absurd rfl h)

/-- Two idle machines with the same ARG and different pasts. -/
theorem witness_SeedLoadErasesTheGeneratorsHistory :
    let s : State := { idle with inputs := [] }
    let t : State := { s with queue := [true], seed := 99, err := .invalidArgument, d1 := 5, v := 7 }
    Inv s ∧ Inv t ∧ s ≠ t ∧ s.phase = .idle ∧ t.phase = .idle ∧ s.cfg = t.cfg ∧ s.arg = t.arg ∧ s.result = t.result ∧
    s.ovr = t.ovr ∧ s.inputs = t.inputs ∧ s.response = t.response ∧ s.tvSamples = t.tvSamples ∧ s.draws = t.draws := by
  obtain ⟨a, b, c, d, e, f, g, h, i, j, k⟩ := inv_idle []
  exact ⟨⟨a, b, c, d, e, f, g, h, i, j, k⟩,
    ⟨a, by decide, c, d, e, by decide, g, nofun, i, j, fun h => absurd rfl h⟩, by decide, rfl, rfl, rfl, rfl, rfl, rfl,
    rfl, rfl, rfl, rfl⟩

theorem witness_AdvanceIsABijection : advanceSeed 0 = advanceSeed 0 ∧ advanceSeed (3 * 0x6DCD882D07D6F629#64) = 3 := by decide

/-- NEXT_BOOL with SEED 0, about to refill an empty queue, and at FINISH. -/
theorem witness_DegenerateSeedDrawsOnlyZero :
    (let s : State := { runs .nextBool .refill [] with seed := 0 }
     Inv s ∧ Degenerate s ∧ s.inputs = [] ∧ ∃ t, step s = .next t) ∧
    (let s : State := { atFinish .nextBool 0 0 with seed := 0 }
     Inv s ∧ Degenerate s ∧ s.inputs = [] ∧ s.phase = .finish ∧ ∃ t, step s = .next t) := by
  obtain ⟨a, _, c, d, e, f, _, _, _, _, _⟩ := inv_ready
  refine ⟨⟨?_, ?_, rfl, _, rfl⟩, ⟨?_, ?_, rfl, rfl, _, rfl⟩⟩
  · exact ⟨a, by decide, c, d, e, f, nofun, nofun, nofun, nofun,
      fun _ => ⟨.nextBool, running_nextBool _ (by decide) rfl rfl rfl (by decide) (by decide) (by decide)⟩⟩
  · exact ⟨rfl, by decide, by decide, nofun, fun _ h => absurd h (by decide), fun _ h => absurd h (by decide)⟩
  · refine ⟨a, by decide, c, fun _ => rfl, e, f, nofun, nofun, nofun, nofun, fun _ => ⟨.nextBool, ?_⟩⟩
    exact
      { command := by decide, subDraw := by decide, seeded := rfl, notDone := rfl, limit := rfl
        d0Fits := fun _ w _ => show 0 < 2 ^ w by positivity
        d1Fits := fun h => absurd h (by decide)
        lastSubDraw := fun _ => rfl
        refillNeeded := fun h => by rcases h with h | h <;> cases h
        windowReady := nofun }
  · exact ⟨rfl, by decide, by decide, nofun, fun _ _ => rfl, fun _ _ => rfl⟩

theorem witness_TrimmingRemovesTheSuccessorsOfOddElements :
    1 ≤ 64 ∧ hail 64 8 3 = some [3, 10, 5, 16, 8, 4, 2, 1] ∧ hail 64 1 0 = some [0] := by decide

/-- The six retained elements of V-EXP's s = 3 just fit a stack of six. -/
theorem witness_MicroStepsComputeTheExpansion :
    let s := refilling 6
    let l := [3, 10, 5, 16, 8, 4, 2, 1]
    s.cfg.Legal ∧ s.inputs = [] ∧ s.runningCommand = some .nextBool ∧ s.phase = .refill ∧
    subDrawWidth .nextBool s.sub = some 1 ∧ s.queue.length < 48 + 1 ∧ s.abt = false ∧
    hail s.cfg.aluWidth 8 ((advanceSeed s.seed).toNat % 2 ^ s.cfg.aluWidth) = some l ∧ (trim l).length ≤ s.cfg.expDepth := by
  decide

/-- They do not fit a stack of five. -/
theorem witness_TooLongAnExpansionOverflows :
    let s := refilling 5
    let l := [3, 10, 5, 16, 8, 4, 2, 1]
    s.cfg.Legal ∧ s.inputs = [] ∧ s.runningCommand = some .nextBool ∧ s.phase = .refill ∧
    subDrawWidth .nextBool s.sub = some 1 ∧ s.queue.length < 48 + 1 ∧ s.abt = false ∧
    hail s.cfg.aluWidth 8 ((advanceSeed s.seed).toNat % 2 ^ s.cfg.aluWidth) = some l ∧ s.cfg.expDepth < (trim l).length := by
  decide

theorem witness_ExpansionEndsWithinItsBound :
    Inv expanding ∧ expanding.inputs = [] ∧ expanding.phase = .expand ∧ expanding.podd = false ∧ expanding.stack = [] :=
  ⟨inv_expanding, rfl, rfl, rfl, rfl⟩

theorem witness_EveryCommandCompletesWithinItsBound :
    Inv ready ∧ Running .nextBool ready ∧ ready.inputs = [] ∧ ready.phase = .refill ∧ ready.sub = 0 :=
  ⟨inv_ready, running_ready, rfl, rfl, rfl⟩

/-- With 49 bits queued NEXT_BOOL completes in three steps: REFILL, TAKE, FINISH. -/
theorem witness_CompletedDrawReadsTheBitStream :
    Inv ready ∧ Running .nextBool ready ∧ ready.inputs = [] ∧ ready.abt = false ∧ ready.phase = .refill ∧ ready.sub = 0 ∧
    ∃ t, runSteps 3 ready = .next t ∧ t.phase = .idle ∧ t.err = .ok :=
  ⟨inv_ready, running_ready, rfl, rfl, rfl, rfl, _, rfl, rfl, rfl⟩

/-- The lists of 3 and 32 merge in 16 (V-EXP's s = 3 visits 16). -/
theorem witness_MergingListsShareTheirFirstBits :
    1 ≤ 64 ∧ hail 64 8 (3 % 2 ^ 64) = some ([3, 10, 5] ++ 16 :: [8, 4, 2, 1]) ∧
    hail 64 8 (32 % 2 ^ 64) = some ([32] ++ 16 :: [8, 4, 2, 1]) := by decide

theorem witness_PowersOfTwoExpandToAOneAndZeros : 63 < 64 ∧ 63 < 64 ∧ 0 < 1 := by decide

end Sys2Proof.Tests
end

section
/-! The configuration (R8): what refuses an ill-formed one (S13), and that nothing the machine does changes it. -/

namespace Sys2Proof.Machine

/-! ### An ill-formed configuration is refused -/

/-- The other half of `step_of_legal` (S13). -/
theorem step_of_not_legal {s : State} (h : ¬ s.cfg.Legal) : step s = .refused .illFormedConfiguration := by
  unfold step stepWith
  rw [if_neg h]

/-- Settles O5: each of the listed violations contradicts one conjunct of `Config.Legal`, and an illegal configuration has no step. -/
theorem illFormedConfigurationIsRefused : Obligations.IllFormedConfigurationIsRefused := by
  intro s hbad
  refine step_of_not_legal fun hlegal => ?_
  obtain ⟨hAluMin, hAluMax, hExpMin, hExpMax, hQueueMin, hQueueMax, hBase⟩ := hlegal
  omega

/-! ### The configuration's frame: the operations that branch, and the reset input -/

@[simp] theorem State.refill_cfg (s : State) (w : Nat) : (s.refill w).cfg = s.cfg := by
  obtain ⟨-, h⟩ | ⟨-, -, h⟩ | ⟨-, -, h⟩ := refill_cases s w <;> simp [h]

@[simp] theorem State.expand_cfg (s : State) : s.expand.cfg = s.cfg := by
  obtain ⟨-, h⟩ | ⟨-, -, -, h⟩ | ⟨-, -, h⟩ | ⟨-, -, -, h⟩ := expand_cases s <;> simp [h]

@[simp] theorem State.takeSubDraw_cfg (s : State) (w : Nat) (more : Bool) : (s.takeSubDraw w more).cfg = s.cfg := by
  simp [State.takeSubDraw]

@[simp] theorem acceptDraw_cfg (i : Instr) (s : State) : (acceptDraw i s).cfg = s.cfg := by
  obtain ⟨-, h⟩ | ⟨-, -, h⟩ | ⟨-, -, -, h⟩ | ⟨-, -, -, h⟩ := acceptDraw_cases i s <;> simp [h]

@[simp] theorem State.writeReg_cfg (s : State) (r : Reg) (data : Word) : (s.writeReg r data).cfg = s.cfg := by
  cases r <;> rfl

/-- The reset input keeps the configuration: it is not among what R230 resets. -/
@[simp] theorem State.resetEvent_cfg (s : State) : s.resetEvent.cfg = s.cfg := rfl

/-- No micro-step of a draw command changes the configuration. -/
theorem DrawStep.cfg_eq {i : Instr} {f : Word → Word → Word} {s t : State} (h : DrawStep i f s t) : t.cfg = s.cfg := by
  cases h with
  | accept _ => exact acceptDraw_cfg i s
  | refill w _ _ => exact s.refill_cfg w
  | expand _ => exact s.expand_cfg
  | emit _ => exact s.emit_cfg
  | take w _ _ _ => exact s.takeSubDraw_cfg w _
  | finish _ => exact s.finish_cfg _

/-- No step of the machine changes the configuration, whatever agent moves. -/
theorem StepCase.cfg_eq {s t : State} (h : StepCase s t) : t.cfg = s.cfg := by
  cases h with
  | engineIdle => rfl
  | engineBusy rest i _ _ _ _ _ hdraw => exact hdraw.cfg_eq
  | reset rest => exact (s.withInputs rest).resetEvent_cfg
  | busError | read | write | overrun | illegal | seedLoad | seedTime | draw => simp

/-- Settles O37, from the inversion `step_inv`: each case of a step keeps the configuration, the reset input included. -/
theorem noStepChangesTheConfiguration : Obligations.NoStepChangesTheConfiguration :=
  fun _ _ h => (step_inv h).cfg_eq

end Sys2Proof.Machine
end

section
/-! The machine's invariant (R47 and what keeps the engine from getting stuck): it holds at reset, and every step keeps it. -/

namespace Sys2Proof.Machine

/-! ### Idle states, and updates the invariant does not see -/

/-- In IDLE the invariant is R47's bounds and the two flags: every other clause speaks of a running command. -/
theorem inv_of_idle {s : State} (hphase : s.phase = .idle) (hlegal : s.cfg.Legal)
    (hqueue : s.queue.length ≤ s.cfg.queueDepth) (hstack : s.stack = []) (hfatal : s.fatal = true → s.seeded = false)
    (hvalue : s.v < 2 ^ s.cfg.aluWidth) (habort : s.abt = false) : Inv s where
  legal := hlegal
  queueFits := hqueue
  stackFits := by simp [hstack]
  stackIdle := fun _ => hstack
  fatalUnseeded := hfatal
  valueFits := hvalue
  abortIdle := fun _ => habort
  oddFollower := fun h => by rw [hphase] at h; cases h
  firstRetained := fun h => by rw [hphase] at h; cases h
  emitNonempty := fun h => by rw [hphase] at h; cases h
  running := fun h => absurd hphase h

/-- What a host access can change while a command runs or none does: ARG, OVR, ABT, and the model's own fields. -/
theorem Inv.hostUpdate {s : State} (h : Inv s) (arg : Word) (ovr abt : Bool) (inputs : List Input) (r : Response)
    (habort : s.phase = .idle → abt = false) :
    Inv { s with arg := arg, ovr := ovr, abt := abt, inputs := inputs, response := r } :=
  { h with
    abortIdle := habort
    running := fun hp =>
      have ⟨i, hr⟩ := h.running hp
      ⟨i, { hr with }⟩ }

theorem Inv.withInputs {s : State} (h : Inv s) (rest : List Input) : Inv (s.withInputs rest) :=
  h.hostUpdate s.arg s.ovr s.abt rest s.response h.abortIdle

theorem Inv.respond {s : State} (h : Inv s) (r : Response) : Inv (s.respond r) :=
  h.hostUpdate s.arg s.ovr s.abt s.inputs r h.abortIdle

theorem Inv.overrun {s : State} (h : Inv s) : Inv s.overrun :=
  h.hostUpdate s.arg true s.abt s.inputs s.response h.abortIdle

/-- A write to ABORT latches only while busy (R28), so ABT stays 0 in IDLE. -/
theorem Inv.writeAbort {s : State} (h : Inv s) (data : Word) : Inv (s.writeAbort data) :=
  h.hostUpdate s.arg s.ovr _ s.inputs s.response fun hp => by simp [h.abortIdle hp, busy_eq_false.mpr hp]

theorem Inv.writeReg {s : State} (h : Inv s) (r : Reg) (data : Word) : Inv (s.writeReg r data) := by
  cases r with
  | arg => exact h.hostUpdate data s.ovr s.abt s.inputs s.response h.abortIdle
  | status => exact h.hostUpdate s.arg (s.ovr && !data.getLsbD 4) s.abt s.inputs s.response h.abortIdle
  | abort => exact h.writeAbort data
  | cmd | result | qcount | param | reserved => exact h

/-! ### Entering IDLE -/

/-- `complete OK` (R46) and FINISH with it (R166), from a phase whose stack is empty. -/
theorem Inv.finish {s : State} (h : Inv s) (result : Word) (hp : s.phase = .finish) : Inv (s.finish result) :=
  inv_of_idle rfl h.legal h.queueFits (h.stackIdle (by rw [hp]; rfl)) h.fatalUnseeded h.valueFits rfl

/-- `fail` (R205) empties the stack and leaves the generator unseeded. -/
theorem Inv.fail {s : State} (h : Inv s) (code : ErrCode) : Inv (s.fail code) :=
  inv_of_idle rfl h.legal h.queueFits rfl (fun _ => rfl) h.valueFits rfl

/-- A rejection (R204) writes latches only. -/
theorem Inv.reject {s : State} (h : Inv s) (hp : s.phase = .idle) (c : Word) (code : ErrCode) :
    Inv ((s.latchCommand c).reject code) :=
  inv_of_idle hp h.legal h.queueFits (h.stackIdle (by rw [hp]; rfl)) h.fatalUnseeded h.valueFits rfl

/-- A construction (R104, R105), whatever the latches and the samples of tv_in were. -/
theorem inv_construct {s : State} (seed : Word) (hlegal : s.cfg.Legal) (hstack : s.stack = [])
    (hvalue : s.v < 2 ^ s.cfg.aluWidth) : Inv (s.construct seed) :=
  inv_of_idle rfl hlegal (Nat.zero_le _) hstack nofun hvalue rfl

theorem Inv.resetEvent {s : State} (h : Inv s) : Inv s.resetEvent :=
  inv_of_idle rfl h.legal (Nat.zero_le _) rfl nofun (Nat.mod_lt _ (by positivity)) rfl

/-! ### A running command -/

theorem subDrawWidths_length {i : Instr} (h : isDraw i = true) :
    1 ≤ (subDrawWidths i).length ∧ (subDrawWidths i).length ≤ 2 := by
  cases i <;> simp [isDraw, subDrawWidths] at *

/-- An accepted draw command runs from REFILL of its first sub-draw (R44). -/
theorem running_accepted {i : Instr} {s : State} (hd : isDraw i = true) (hw : i.wf = true) (hs : s.seeded = true)
    (hl : limitRejected i s.arg = false) : Running i { s.latchCommand (encode i) with phase := .refill } where
  command := runningCommand_iff.mpr ⟨hd, hw, by simp [encode]⟩
  subDraw := (subDrawWidths_length hd).1
  seeded := hs
  notDone := rfl
  limit := hl
  d0Fits := fun h => absurd h (by simp [subDrawsDone])
  d1Fits := fun h => absurd h (by simp [subDrawsDone])
  lastSubDraw := nofun
  refillNeeded := fun h => by simp at h
  windowReady := nofun

/-- The current sub-draw of a running command has a width, at most 48 (R38, R160). -/
theorem Running.width {i : Instr} {s : State} (h : Running i s) : ∃ w, subDrawWidth i s.sub = some w ∧ w ≤ 48 := by
  obtain ⟨-, hwf, -⟩ := runningCommand_iff.mp h.command
  have hw : subDrawWidth i s.sub = some ((subDrawWidths i)[s.sub.val]'h.subDraw) := List.getElem?_eq_getElem h.subDraw
  exact ⟨_, hw, (width_le hwf hw).2⟩

/-- The micro-steps before FINISH, TAKE aside, write only the phase, the expander and the queue: the command keeps running. -/
theorem Running.microStep {i : Instr} {s : State} (h : Running i s) (hp : s.phase ≠ .finish) (p : Phase)
    (seed : Word) (queue stack : List Bool) (v : Nat) (podd : Bool) (hp' : p ≠ .finish)
    (hrefill : p = .expand ∨ p = .emit → ∀ w, subDrawWidth i s.sub = some w → queue.length < 48 + w)
    (hwindow : p = .take → ∀ w, subDrawWidth i s.sub = some w → 48 + w ≤ queue.length) :
    Running i { s with phase := p, seed := seed, queue := queue, stack := stack, v := v, podd := podd } := by
  have hdone : subDrawsDone { s with phase := p, seed := seed, queue := queue, stack := stack, v := v, podd := podd } =
      subDrawsDone s := by simp [subDrawsDone, hp, hp']
  exact
    { command := h.command
      subDraw := h.subDraw
      seeded := h.seeded
      notDone := h.notDone
      limit := h.limit
      d0Fits := fun hn => h.d0Fits (by rwa [hdone] at hn)
      d1Fits := fun hn => h.d1Fits (by rwa [hdone] at hn)
      lastSubDraw := fun he => absurd he hp'
      refillNeeded := hrefill
      windowReady := hwindow }


/-- TAKE fills the register of the current sub-draw with a value that fits its width, and goes to the next sub-draw or to FINISH
(R160, R161). -/
theorem Running.takeSubDraw {i : Instr} {s : State} {w : Nat} (h : Running i s) (hp : s.phase = .take)
    (hw : subDrawWidth i s.sub = some w) : Running i (s.takeSubDraw w (hasSubDrawAfter i s.sub)) := by
  obtain ⟨hd, hwf, -⟩ := runningCommand_iff.mp h.command
  obtain ⟨-, hlen⟩ := subDrawWidths_length hd
  have hsub := h.subDraw
  have hvalue := subDrawValue_lt (packWindow (s.queue.take 48)) (width_le hwf hw).2
  have hold : subDrawsDone s = s.sub.val := by simp [subDrawsDone, hp]
  rw [takeSubDraw_eq]
  obtain h0 | h1 : s.sub = 0 ∨ s.sub = 1 := by omega
  · have hd0 : ∀ w', (subDrawWidths i)[0]? = some w' →
        (subDrawValue (packWindow (s.queue.take 48)) w).toNat < 2 ^ w' := fun w' hw' => by
      rw [h0, subDrawWidth] at hw
      cases hw.symm.trans hw'
      exact hvalue
    obtain hlast | hmore : (subDrawWidths i).length = 1 ∨ (subDrawWidths i).length = 2 := by omega
    · simp only [hasSubDrawAfter, h0, hlast]
      exact { h with
        subDraw := by simp [hlast], d0Fits := fun _ => hd0, d1Fits := fun hn => absurd hn (by simp [subDrawsDone])
        lastSubDraw := fun _ => hlast.symm, refillNeeded := nofun, windowReady := nofun }
    · simp only [hasSubDrawAfter, h0, hmore]
      exact { h with
        subDraw := by simp [hmore], d0Fits := fun _ => hd0, d1Fits := fun hn => absurd hn (by simp [subDrawsDone])
        lastSubDraw := nofun, refillNeeded := nofun, windowReady := nofun }
  · have hlast : (subDrawWidths i).length = 2 := by rw [h1] at hsub; simp at hsub; omega
    simp only [hasSubDrawAfter, h1, hlast]
    exact { h with
      subDraw := by simp [hlast], d0Fits := fun _ => h.d0Fits (by rw [hold, h1]; decide)
      d1Fits := fun _ w' hw' => by
        rw [h1, subDrawWidth] at hw
        cases hw.symm.trans hw'
        exact hvalue
      lastSubDraw := fun _ => hlast.symm, refillNeeded := nofun, windowReady := nofun }

/-! ### The micro-steps -/

section
variable {i : Instr} {s : State} {w : Nat}

theorem Inv.refill (h : Inv s) (hr : Running i s) (hp : s.phase = .refill) (hw : subDrawWidth i s.sub = some w) :
    Inv (s.refill w) := by
  have hfin : s.phase ≠ .finish := by rw [hp]; decide
  have hstack : s.stack = [] := h.stackIdle (by rw [hp]; rfl)
  obtain ⟨hq, he⟩ | ⟨-, -, he⟩ | ⟨hq, -, he⟩ := refill_cases s w <;> rw [he]
  · exact { h with
      stackIdle := fun _ => hstack
      abortIdle := nofun, oddFollower := nofun, firstRetained := nofun, emitNonempty := nofun
      running := fun _ => ⟨i, hr.microStep hfin .take _ _ _ _ _ (by decide) (by simp)
        fun _ w' hw' => by rw [hw] at hw'; cases hw'; exact hq⟩ }
  · exact h.fail _
  · exact { h with
      stackFits := Nat.zero_le _
      stackIdle := fun _ => rfl
      valueFits := Nat.mod_lt _ (by positivity)
      abortIdle := nofun, oddFollower := nofun, emitNonempty := nofun
      firstRetained := fun _ _ => rfl
      running := fun _ => ⟨i, hr.microStep hfin .expand _ _ _ _ _ (by decide)
        (fun _ w' hw' => by rw [hw] at hw'; cases hw'; exact hq) nofun⟩ }

/-- The comparator and the next element (R125), once the current element is on the stack or is the even follower of an odd one. -/
theorem Inv.nextElement (h : Inv s) (hr : Running i s) (hp : s.phase = .expand) (hstack : s.stack ≠ []) :
    Inv s.nextElement := by
  have hfin : s.phase ≠ .finish := by rw [hp]; decide
  have hrun (p : Phase) (v : Nat) (podd : Bool) (hp' : p = .expand ∨ p = .emit) :
      Running i { s with phase := p, v := v, podd := podd } :=
    hr.microStep hfin p _ _ _ v podd (by rintro rfl; simp at hp') (fun _ => hr.refillNeeded (.inl hp))
      (by rintro rfl; simp at hp')
  obtain ⟨-, he⟩ | ⟨-, -, he⟩ | ⟨-, hodd, he⟩ := nextElement_cases s <;> rw [he]
  · exact { h with
      stackIdle := nofun, abortIdle := nofun, oddFollower := nofun, firstRetained := nofun
      emitNonempty := fun _ => hstack
      running := fun _ => ⟨i, hrun .emit _ _ (.inr rfl)⟩ }
  · exact { h with
      valueFits := lt_of_le_of_lt (Nat.div_le_self _ _) h.valueFits
      oddFollower := nofun
      firstRetained := fun _ _ => rfl
      running := fun _ => ⟨i, by simpa [hp] using hrun .expand (s.v / 2) false (.inl rfl)⟩ }
  · exact { h with
      valueFits := Nat.mod_lt _ (by positivity)
      oddFollower := fun _ _ => by
        have : 1 ≤ s.cfg.aluWidth := by have := h.legal.1; omega
        simpa [multiplyAdd_eq] using multiplyAdd_even this hodd
      firstRetained := fun _ he => absurd he hstack
      running := fun _ => ⟨i, hrun s.phase _ _ (.inl hp)⟩ }

/-- A retained element fits the stack when it is not full (R125). -/
theorem Inv.pushParity (h : Inv s) (hr : Running i s) (hp : s.phase = .expand)
    (hroom : s.stack.length ≠ s.cfg.expDepth) : Inv s.pushParity ∧ Running i s.pushParity := by
  have hfits : s.pushParity.stack.length ≤ s.cfg.expDepth := by
    have := h.stackFits
    simp only [State.pushParity_stack, List.length_cons]
    omega
  have hr' : Running i s.pushParity := { hr with }
  exact ⟨{ h with
    stackFits := hfits
    stackIdle := fun he => by rw [State.pushParity_phase, hp] at he; cases he
    firstRetained := nofun, emitNonempty := nofun
    running := fun _ => ⟨i, hr'⟩ }, hr'⟩

theorem Inv.expand (h : Inv s) (hr : Running i s) (hp : s.phase = .expand) : Inv s.expand := by
  obtain ⟨-, he⟩ | ⟨-, -, -, he⟩ | ⟨-, hodd, he⟩ | ⟨-, -, hroom, he⟩ := expand_cases s <;> rw [he]
  · exact h.fail _
  · exact h.fail _
  · refine h.nextElement hr hp fun hempty => ?_
    exact absurd (h.firstRetained hp hempty) (by simp [hodd])
  · obtain ⟨hpush, hrun⟩ := h.pushParity hr hp hroom
    exact hpush.nextElement hrun hp (by simp)

/-- The append of EMIT fits the queue: it held fewer than 96 bits, and P_QUEUE_DEPTH is at least 95 + P_EXP_DEPTH (R126, R146). -/
theorem Inv.emit (h : Inv s) (hr : Running i s) (hp : s.phase = .emit) : Inv s.emit := by
  have hfin : s.phase ≠ .finish := by rw [hp]; decide
  have hfits : (s.queue ++ s.stack).length ≤ s.cfg.queueDepth := by
    obtain ⟨w, hw, hwidth⟩ := hr.width
    have hqueue := hr.refillNeeded (.inr hp) w hw
    have hstack := h.stackFits
    obtain ⟨-, -, -, -, hdepth, -, -⟩ := h.legal
    rw [List.length_append]
    omega
  exact { h with
    queueFits := hfits
    stackFits := Nat.zero_le _
    stackIdle := fun _ => rfl
    abortIdle := nofun, oddFollower := nofun, firstRetained := nofun, emitNonempty := nofun
    running := fun _ => ⟨i, hr.microStep hfin .refill _ _ _ _ _ (by decide) (by simp) nofun⟩ }

theorem Inv.takeSubDraw (h : Inv s) (hr : Running i s) (hp : s.phase = .take) (hw : subDrawWidth i s.sub = some w) :
    Inv (s.takeSubDraw w (hasSubDrawAfter i s.sub)) := by
  have hr' := hr.takeSubDraw hp hw
  have hstack : s.stack = [] := h.stackIdle (by rw [hp]; rfl)
  have hqueue : (s.queue.drop 48).length ≤ s.cfg.queueDepth := le_trans (by simp) h.queueFits
  rw [takeSubDraw_eq] at hr' ⊢
  generalize hasSubDrawAfter i s.sub = more at hr' ⊢
  cases more <;>
    exact { h with
      queueFits := hqueue
      stackIdle := fun _ => hstack
      abortIdle := nofun, oddFollower := nofun, firstRetained := nofun, emitNonempty := nofun
      running := fun _ => ⟨i, hr'⟩ }

/-- Every micro-step of the running command keeps the invariant (R40). -/
theorem DrawStep.inv {f : Word → Word → Word} {t : State} (hstep : DrawStep i f s t) (h : Inv s)
    (hr : Running i s) (hbusy : s.phase ≠ .idle) : Inv t := by
  cases hstep with
  | accept hp => exact absurd hp hbusy
  | refill w hp hw => exact h.refill hr hp hw
  | expand hp => exact h.expand hr hp
  | emit hp => exact h.emit hr hp
  | take w hp hw _ => exact h.takeSubDraw hr hp hw
  | finish hp => exact h.finish _ hp

/-- Acceptance of a draw command (R44), rejections included. -/
theorem Inv.acceptDraw (h : Inv s) (hp : s.phase = .idle) (hd : isDraw i = true) : Inv (acceptDraw i s) := by
  have hstack : s.stack = [] := h.stackIdle (by rw [hp]; rfl)
  obtain ⟨-, he⟩ | ⟨-, -, he⟩ | ⟨-, -, -, he⟩ | ⟨hwf, hseeded, hlimit, he⟩ := acceptDraw_cases i s <;> rw [he]
  · exact h.reject hp _ _
  · exact h.reject hp _ _
  · exact h.reject hp _ _
  · exact { h with
      stackIdle := fun _ => hstack
      abortIdle := nofun, oddFollower := nofun, firstRetained := nofun, emitNonempty := nofun
      running := fun _ => ⟨i, running_accepted hd hwf hseeded hlimit⟩ }

end

/-! ### Every step -/

/-- Each case of a step keeps the invariant. -/
theorem StepCase.inv {s t : State} (hstep : StepCase s t) (h : Inv s) : Inv t := by
  cases hstep with
  | engineIdle rest => exact h.withInputs rest
  | engineBusy rest i _ _ hbusy hcmd _ hdraw =>
    obtain ⟨j, hr⟩ := (h.withInputs rest).running hbusy
    obtain rfl := hr.unique hcmd
    exact hdraw.inv (h.withInputs rest) hr hbusy
  | reset rest => exact (h.withInputs rest).resetEvent
  | busError a rest => exact (h.withInputs rest).respond _
  | read k rest => exact (h.withInputs rest).respond _
  | write k data rest => exact ((h.withInputs rest).writeReg _ data).respond _
  | overrun c rest => exact ((h.withInputs rest).respond _).overrun
  | illegal c e rest _ hp => exact ((h.withInputs rest).respond _).reject hp c _
  | seedLoad c rest _ hp => exact inv_construct _ h.legal (h.stackIdle (by rw [hp]; rfl)) h.valueFits
  | seedTime c rest _ hp =>
    refine inv_construct _ ?_ ?_ ?_
    · simpa using h.legal
    · simpa using h.stackIdle (by rw [hp]; rfl)
    · simpa using h.valueFits
  | draw c i rest _ hp _ hd => exact ((h.withInputs rest).respond _).acceptDraw hp hd

/-- Settles O35, from the inversion `step_inv`: host accesses and reset keep the invariant by `Inv.hostUpdate` and `inv_of_idle`,
the engine's micro-steps by `DrawStep.inv`. -/
theorem everyStepKeepsTheInvariant : Obligations.EveryStepKeepsTheInvariant :=
  fun _ _ h hstep => (step_inv hstep).inv h

/-- Settles O2: State.reset is idle with an empty queue and stack, in the default configuration of R8. -/
theorem invHoldsAtReset : Obligations.InvHoldsAtReset :=
  inv_of_idle rfl (by decide) (Nat.zero_le _) rfl nofun (by decide) rfl

end Sys2Proof.Machine
end

section
/-! Acceptance (R44 to R46): the decoder's answer in the numbers the spec's tests are written in, and the CMD write. -/

namespace Sys2Proof.Machine

/-! ### The tests of R44 on the numbers of a command word -/

/-- The rows of R81 by the number of their opcode. -/
theorem commandOf_isSome_iff (o : BitVec 8) (w : BitVec 6) : (∃ i, commandOf o w = some i) ↔
    o.toNat = 0x01 ∨ o.toNat = 0x02 ∨ (0x10 ≤ o.toNat ∧ o.toNat ≤ 0x1A) := by
  unfold commandOf
  split
  case h_14 =>
    simp only [reduceCtorEq, exists_false, false_iff]
    simp only [← BitVec.toNat_inj] at *
    simp at *
    omega
  all_goals simp

/-- The W test of R82 on numbers. -/
theorem legalWidthFor_iff (o : BitVec 8) (w : BitVec 6) : legalWidthFor o w = true ↔
    if o.toNat = 0x10 then 1 ≤ w.toNat ∧ w.toNat ≤ 48 else w.toNat = 0 := by
  have hopc : o = 0x10#8 ↔ o.toNat = 0x10 := BitVec.toNat_inj.symm
  by_cases h : o.toNat = 0x10
  · simp [legalWidthFor, legalDrawWidth, hopc, h]
  · simp [legalWidthFor, hopc, h, ← BitVec.toNat_inj]

/-- `legal(c)` (R82) is what the decoder accepts. -/
theorem legalWord_iff_decodes (c : Word) : legalWord c = true ↔ ∃ i, decode c = .ok i := by
  have hres : reservedField c = 0#50 ↔ c.toNat / 2 ^ 14 = 0 := by
    rw [← BitVec.toNat_inj, reservedField_toNat]; rfl
  have hrow := commandOf_isSome_iff (opcField c) (widthField c)
  have hwidth := legalWidthFor_iff (opcField c) (widthField c)
  rw [opcField_toNat] at hrow hwidth
  rw [widthField_toNat] at hwidth
  simp only [decode_ok, exists_and_left, exists_and_right, hres, hrow, hwidth, legalWord, Bool.and_eq_true,
    decide_eq_true_eq, and_assoc]
  split <;> simp

section
variable {c : Word} {i : Instr} (h : decode c = .ok i)
include h

/-- A word decodes to the one well-formed command whose encoding it is (R84). -/
theorem encode_of_decode : encode i = c ∧ i.wf = true := by
  obtain ⟨hres, hrow, hwidth⟩ := decode_ok.mp h
  obtain ⟨hopc, hw, hwf⟩ := commandOf_some hrow hwidth
  exact ⟨by rw [encode, hopc, hw, commandWord_fields c hres], hwf⟩

/-- OPC of a decoded word (R81). -/
theorem opcode_of_decode : c.toNat % 256 = i.opcode.toNat := by
  obtain ⟨-, hrow, hwidth⟩ := decode_ok.mp h
  rw [(commandOf_some hrow hwidth).1, opcField_toNat]

/-- `is_draw` (R83) of a decoded word. -/
theorem drawWord_of_decode : drawWord c = isDraw i := by
  rw [drawWord, opcode_of_decode h]
  cases i <;> rfl

/-- The limit test (R172) of a decoded word. -/
theorem badLimit_of_decode (arg : Word) : badLimit c arg = limitRejected i arg := by
  have h64 : signedLow 64 arg = signedOf 64 arg.toNat := by
    rw [signedLow_eq 64 (by norm_num), Nat.mod_eq_of_lt arg.isLt]
  rw [badLimit, opcode_of_decode h]
  cases i with
  | nextShortLim => simp [Instr.opcode, limitRejected, limitOf, signedLow_eq]
  | nextIntLim => simp [Instr.opcode, limitRejected, limitOf, signedLow_eq]
  | nextLongLim => simp [Instr.opcode, limitRejected, limitOf, h64]
  | _ => rfl

end

/-! ### The CMD write -/

section
variable {s : State} {c : Word} {rest : List Input} (hlegal : s.cfg.Legal)
  (hin : s.inputs = hostWrite s.cfg.base 0 c :: rest)
include hlegal hin

/-- A CMD write of a command in IDLE runs the command (R44). -/
theorem step_cmd_ok {i : Instr} (hidle : s.phase = .idle) (hdec : decode c = .ok i) :
    step s = exec i ((s.withInputs rest).respond .written) :=
  (step_cmd hlegal hin).trans (commandWrite_ok hidle hdec)

/-- A CMD write of an illegal word in IDLE is rejected (R44, R202). -/
theorem step_cmd_error {e : DecodeError} (hidle : s.phase = .idle) (hdec : decode c = .error e) :
    step s = .next (((s.withInputs rest).respond .written).rejectIllegal c) :=
  (step_cmd hlegal hin).trans (commandWrite_error hidle hdec)

/-- A CMD write while busy is dropped (R45). -/
theorem step_cmd_busy (hbusy : s.phase ≠ .idle) : step s = .next ((s.withInputs rest).respond .written).overrun :=
  (step_cmd hlegal hin).trans (commandWrite_busy hbusy)

end

/-- Settles O3: a CMD write in IDLE is the command's `exec`. -/
theorem stepRunsTheWrittenCommand : Obligations.StepRunsTheWrittenCommand :=
  fun _ _ _ _ hlegal hidle hdec hin => step_cmd_ok hlegal hin hidle hdec

/-- Settles O10: a CMD write while busy is the overrun. -/
theorem overrunDropsTheCommand : Obligations.OverrunDropsTheCommand :=
  fun _ _ _ hlegal hbusy hin => step_cmd_busy hlegal hin hbusy

/-- Settles O4: both forms of the engine's turn reach `engineTurn`, which is `exec` while a command runs and nothing in IDLE. -/
theorem engineTurnRunsTheRunningCommand : Obligations.EngineTurnRunsTheRunningCommand := by
  refine ⟨fun s i hlegal hbusy hcmd => ⟨fun hin => ?_, fun rest hin => ?_⟩,
    fun s hlegal hidle => ⟨fun hin => ?_, fun rest hin => ?_⟩⟩ <;> rw [step_of_legal hlegal, hin]
  · exact engineTurn_busy hbusy hcmd
  · exact engineTurn_busy (s := s.withInputs rest) hbusy hcmd
  · exact engineTurn_idle hidle
  · exact engineTurn_idle (s := s.withInputs rest) hidle

/-- In IDLE a draw command's step is its acceptance (R44). -/
theorem exec_draw_idle {i : Instr} {s : State} (hd : isDraw i = true) (hidle : s.phase = .idle) :
    exec i s = .next (acceptDraw i s) := by
  rw [exec_draw hd, drawStep, hidle]

/-- Settles O13: of the cases of acceptance only the last is left. -/
theorem drawIsAcceptedWhenSeeded : Obligations.DrawIsAcceptedWhenSeeded := by
  intro i s hd hwf hidle hseeded hlimit
  rw [exec_draw_idle hd hidle]
  obtain ⟨h, -⟩ | ⟨-, h, -⟩ | ⟨-, -, h, -⟩ | ⟨-, -, -, he⟩ := acceptDraw_cases i s
  · simp [hwf] at h
  · simp [hseeded] at h
  · simp [hlimit] at h
  · simp [he, State.latchCommand, encode]

/-- In IDLE the seed commands latch and construct (R104, R105). -/
theorem exec_seedLoad_idle {s : State} (hidle : s.phase = .idle) :
    exec .seedLoad s = .next ((s.latchCommand (encode .seedLoad)).construct s.arg) :=
  seedStep_idle hidle

theorem exec_seedTime_idle {s : State} (hidle : s.phase = .idle) :
    exec .seedTime s =
      .next ((s.latchCommand (encode .seedTime)).tvTaken.construct (timeSeed s.tvIn s.cfg.seedXor)) :=
  (seedStep_idle (i := .seedTime) (b := fun t => t.tvTaken.construct (timeSeed t.tvIn t.cfg.seedXor)) hidle).trans rfl

/-- A sample of tv_in moves the list or, when it is empty, the counter of free values, and nothing else (R42). -/
theorem State.tvTaken_eq (s : State) :
    s.tvTaken =
      { s with tvSamples := s.tvSamples.tail, draws := if s.tvSamples = [] then s.draws + 1 else s.draws } := by
  unfold State.tvTaken
  split <;> simp_all

/-- Settles O9: the word is illegal, or it decodes to one of the two seed commands or to a draw command, and each has its own
clause of R44. -/
theorem acceptanceFollowsTheTestsInOrder : Obligations.AcceptanceFollowsTheTestsInOrder := by
  intro s c rest hlegal hidle hin
  dsimp only
  cases hdec : decode c with
  | error e =>
    have hw : legalWord c = false := by simp [Bool.eq_false_iff, legalWord_iff_decodes, hdec]
    rw [step_cmd_error hlegal hin hidle hdec, if_pos hw]
    rfl
  | ok i =>
    have hw : legalWord c = true := (legalWord_iff_decodes c).mpr ⟨i, hdec⟩
    obtain ⟨rfl, hwf⟩ := encode_of_decode hdec
    rw [step_cmd_ok hlegal hin hidle hdec, drawWord_of_decode hdec, badLimit_of_decode hdec, opcode_of_decode hdec, hw]
    have hidle' : ((s.withInputs rest).respond .written).phase = .idle := hidle
    cases hd : isDraw i with
    | true =>
      have hopc : i.opcode.toNat ≠ 1 ∧ i.opcode.toNat ≠ 2 := by cases i <;> simp [isDraw, Instr.opcode] at *
      rw [exec_draw_idle hd hidle']
      obtain ⟨h, -⟩ | ⟨-, h, he⟩ | ⟨-, h, hl, he⟩ | ⟨-, h, hl, he⟩ :=
        acceptDraw_cases i ((s.withInputs rest).respond .written)
      · simp [hwf] at h
      · rw [he, if_neg (by decide), if_pos ⟨rfl, h⟩]; rfl
      · rw [State.respond_arg] at hl
        rw [he, if_neg (by decide), if_neg (by simpa using h), if_pos hl]; rfl
      · rw [he, if_neg (by decide), if_neg (by simpa using h), if_neg (by simpa using hl), if_neg hopc.1, if_neg hopc.2]
        rfl
    | false =>
      cases i <;> simp only [isDraw, Bool.true_eq_false] at hd
      · rw [exec_seedLoad_idle hidle', if_neg (by decide), if_neg (by simp), if_neg nofun, if_pos (by decide)]
        simp only [State.construct, State.completeOk, ← hidle]
        rfl
      · rw [exec_seedTime_idle hidle', if_neg (by decide), if_neg (by simp), if_neg nofun,
          if_neg (by decide), if_pos (by decide)]
        simp only [State.tvTaken_eq, State.construct, State.completeOk, ← hidle]
        rfl

end Sys2Proof.Machine
end

section
/-! The register window (R22 to R29): reads, writes other than CMD, and the fields of STATUS and PARAM. -/

namespace Sys2Proof.Machine

/-! ### Host accesses -/

/-- Settles O27: a read of each register answers `readReg` and changes only the model's own fields. -/
theorem hostReadsHaveNoSideEffect : Obligations.HostReadsHaveNoSideEffect := by
  intro s k rest hlegal hk hin
  rw [step_read hlegal hk hin]
  interval_cases k <;> rfl

/-- A write to a register other than CMD is `writeReg`, answered as written (R67). -/
theorem step_writeReg {s : State} {k : Nat} {data : Word} {rest : List Input} (hlegal : s.cfg.Legal) (h0 : 1 ≤ k)
    (hk : k < 8) (hin : s.inputs = hostWrite s.cfg.base k data :: rest) :
    step s = .next (((s.withInputs rest).writeReg (regAt k) data).respond .written) := by
  rw [step_write hlegal hk hin]
  interval_cases k <;> rfl

/-- The clear of OVR by data bit 4 (R26), as the two cases of the rule. -/
theorem State.writeStatus_eq (s : State) (data : Word) :
    s.writeStatus data = { s with ovr := if data.getLsbD 4 = true then false else s.ovr } := by
  by_cases h : data.getLsbD 4 = true <;> simp only [State.writeStatus, h] <;> simp

/-- The latch of ABT by data bit 0 while busy (R28), as the two cases of the rule. -/
theorem State.writeAbort_eq (s : State) (data : Word) :
    s.writeAbort data = { s with abt := if s.phase ≠ .idle ∧ data.getLsbD 0 = true then true else s.abt } := by
  by_cases hp : s.phase = .idle <;> by_cases h : data.getLsbD 0 = true <;>
    simp only [State.writeAbort, State.busy, hp, h, ne_eq] <;> simp

/-- Settles O28: register by register, with `writeStatus_eq` for STATUS. -/
theorem hostWritesActOnlyWhereTheSpecSays : Obligations.HostWritesActOnlyWhereTheSpecSays := by
  intro s k data rest hlegal h0 hk h5 hin
  rw [step_writeReg hlegal h0 hk hin]
  obtain rfl | rfl | hignored : k = 1 ∨ k = 3 ∨ k = 2 ∨ k = 4 ∨ k = 6 ∨ k = 7 := by omega
  · rfl
  · simp [State.writeReg, regAt, State.writeStatus_eq, State.respond]
  · obtain rfl | rfl | rfl | rfl := hignored <;> rfl

/-- Settles O29, by `writeAbort_eq`. -/
theorem abortWriteLatchesOnlyWhileBusy : Obligations.AbortWriteLatchesOnlyWhileBusy := by
  refine ⟨fun _ => rfl, fun s data rest hlegal hin => ?_⟩
  rw [step_writeReg hlegal (by norm_num) (by norm_num) hin]
  simp [State.writeReg, regAt, State.writeAbort_eq, State.respond]

/-! ### STATUS and PARAM -/

/-- Settles O32. -/
theorem statusShowsItsFields : Obligations.StatusShowsItsFields := by
  intro s j
  simp only [State.readReg, State.statusWord, BitVec.getLsbD_append]
  by_cases hj : j < 12
  · interval_cases j <;> simp [State.busy]
    all_goals cases s.err <;> rfl
  · obtain ⟨k, rfl⟩ : ∃ k, j = k + 12 := ⟨j - 12, by omega⟩
    simp

/-- A concatenation as a number. -/
theorem append_toNat {m n : Nat} (a : BitVec m) (b : BitVec n) : (a ++ b).toNat = a.toNat * 2 ^ n + b.toNat := by
  rw [BitVec.toNat_append, ← Nat.shiftLeft_add_eq_or_of_lt b.isLt, Nat.shiftLeft_eq]

/-- PARAM as a number, field by field (R29). -/
theorem paramWord_toNat {c : Config} (h : c.Legal) :
    (paramWord c).toNat =
      (longBit c.longCombine).toNat * 2 ^ 57 + (modBit c.modMode).toNat * 2 ^ 56 + c.aluWidth * 2 ^ 48 +
        c.queueDepth * 2 ^ 24 + c.expDepth := by
  obtain ⟨-, halu, -, hexp, -, hqueue, -⟩ := h
  simp only [paramWord, append_toNat, BitVec.toNat_ofNat]
  omega

theorem modBit_eq_one (m : ModMode) : (modBit m).toNat = 1 ↔ m = .trunc := by cases m <;> decide

theorem longBit_eq_one (m : LongCombine) : (longBit m).toNat = 1 ↔ m = .addSext := by cases m <;> decide

/-- Settles O33: the fields do not overlap, since each parameter fits its place in a legal configuration. -/
theorem paramReportsTheConfiguration : Obligations.ParamReportsTheConfiguration := by
  refine ⟨fun s hlegal => ?_, by decide⟩
  dsimp only [State.readReg]
  rw [paramWord_toNat hlegal]
  have hmodLt := (modBit s.cfg.modMode).isLt
  have hlongLt := (longBit s.cfg.longCombine).isLt
  have hwrite := fun data rest => step_writeReg (s := s) (k := 6) (data := data) (rest := rest) hlegal (by norm_num)
    (by norm_num)
  obtain ⟨-, halu, -, hexp, -, hqueue, -⟩ := hlegal
  refine ⟨by omega, by omega, by omega, ?_, ?_, by omega, hwrite⟩
  · rw [← modBit_eq_one]; omega
  · rw [← longBit_eq_one]; omega

end Sys2Proof.Machine
end

section
/-! Who writes what: the fields each operation of a draw command and each host write can touch, and from them the rules that name the
only writers of RESULT, SEED and the sticky flags (R25, R30, R41). -/

namespace Sys2Proof.Machine

/-! ### The fields an operation can touch -/

/-- Acceptance writes the latches, DONE, ERR and the phase (R44). -/
theorem acceptDraw_touches (i : Instr) (s : State) : ∃ lcmd larg sub abt done err phase, acceptDraw i s =
    { s with lcmd := lcmd, larg := larg, sub := sub, abt := abt, done := done, err := err, phase := phase } := by
  obtain ⟨-, h⟩ | ⟨-, -, h⟩ | ⟨-, -, -, h⟩ | ⟨-, -, -, h⟩ := acceptDraw_cases i s <;>
    exact ⟨_, _, _, _, _, _, _, h⟩

/-- REFILL writes SEED, the expander, the phase, and what `fail` writes (R141). -/
theorem refill_touches (s : State) (w : Nat) : ∃ seed v podd stack phase err fatal seeded done abt, s.refill w =
    { s with
      seed := seed, v := v, podd := podd, stack := stack, phase := phase, err := err, fatal := fatal, seeded := seeded
      done := done, abt := abt } := by
  obtain ⟨-, h⟩ | ⟨-, -, h⟩ | ⟨-, -, h⟩ := refill_cases s w <;> exact ⟨_, _, _, _, _, _, _, _, _, _, h⟩

/-- The last part of EXPAND writes V, PODD and the phase (R125). -/
theorem nextElement_touches (s : State) : ∃ v podd phase, s.nextElement =
    { s with v := v, podd := podd, phase := phase } := by
  obtain ⟨-, h⟩ | ⟨-, -, h⟩ | ⟨-, -, h⟩ := nextElement_cases s <;> exact ⟨_, _, _, h⟩

/-- EXPAND writes the expander, the phase, and what `fail` writes (R125). -/
theorem expand_touches (s : State) : ∃ v podd stack phase err fatal seeded done abt, s.expand =
    { s with
      v := v, podd := podd, stack := stack, phase := phase, err := err, fatal := fatal, seeded := seeded, done := done
      abt := abt } := by
  obtain ⟨-, h⟩ | ⟨-, -, -, h⟩ | ⟨-, -, h⟩ | ⟨-, -, -, h⟩ := expand_cases s
  · exact ⟨_, _, _, _, _, _, _, _, _, h⟩
  · exact ⟨_, _, _, _, _, _, _, _, _, h⟩
  · obtain ⟨_, _, _, h'⟩ := nextElement_touches s
    exact ⟨_, _, _, _, _, _, _, _, _, h.trans h'⟩
  · obtain ⟨_, _, _, h'⟩ := nextElement_touches s.pushParity
    exact ⟨_, _, _, _, _, _, _, _, _, h.trans h'⟩

/-- A host write to a register other than CMD writes ARG, OVR or ABT (R24, R26, R28). -/
theorem writeReg_touches (s : State) (r : Reg) (data : Word) : ∃ arg ovr abt, s.writeReg r data =
    { s with arg := arg, ovr := ovr, abt := abt } := by
  cases r <;> exact ⟨_, _, _, rfl⟩

/-! ### The frame of a draw command -/

/-- What one step of a draw command leaves unchanged, by phase. -/
structure DrawFrame (s t : State) : Prop where
  arg : t.arg = s.arg
  ovr : t.ovr = s.ovr
  cfg : t.cfg = s.cfg
  inputs : t.inputs = s.inputs
  response : t.response = s.response
  tvSamples : t.tvSamples = s.tvSamples
  draws : t.draws = s.draws
  result : s.phase ≠ .finish → t.result = s.result
  latches : s.phase ≠ .idle → t.lcmd = s.lcmd ∧ t.larg = s.larg
  seed : s.phase ≠ .refill → t.seed = s.seed
  queue : s.phase ≠ .emit → s.phase ≠ .take → t.queue = s.queue
  window : s.phase ≠ .take → t.acc = s.acc ∧ t.d0 = s.d0 ∧ t.d1 = s.d1
  flags : s.phase ≠ .refill → s.phase ≠ .expand → t.seeded = s.seeded ∧ t.fatal = s.fatal

theorem DrawStep.frame {i : Instr} {f : Word → Word → Word} {s t : State} (h : DrawStep i f s t) : DrawFrame s t := by
  cases h with
  | accept hp =>
    obtain ⟨_, _, _, _, _, _, _, he⟩ := acceptDraw_touches i s
    rw [he]
    constructor <;> simp [hp]
  | refill w hp _ =>
    obtain ⟨_, _, _, _, _, _, _, _, _, _, he⟩ := refill_touches s w
    rw [he]
    constructor <;> simp [hp]
  | expand hp =>
    obtain ⟨_, _, _, _, _, _, _, _, _, he⟩ := expand_touches s
    rw [he]
    constructor <;> simp [hp]
  | emit hp => constructor <;> simp [hp]
  | take w hp _ _ =>
    rw [takeSubDraw_eq]
    constructor <;> simp [hp]
  | finish hp => constructor <;> simp [hp]

/-- The bytes of CMD, ARG, ABORT, PARAM and the reserved offset depend on ARG and the configuration only (R22). -/
theorem windowByte_congr {s t : State} {off : Nat} (hoff : off < 64) (hout : off < 16 ∨ 40 ≤ off) (harg : t.arg = s.arg)
    (hcfg : t.cfg = s.cfg) : t.windowByte off = s.windowByte off := by
  have hreg : regAt (off / 8) ∈ [Reg.cmd, .arg, .abort, .param, .reserved] := by
    have hk : off / 8 = 0 ∨ off / 8 = 1 ∨ off / 8 = 5 ∨ off / 8 = 6 ∨ off / 8 = 7 := by omega
    obtain h | h | h | h | h := hk <;> rw [h] <;> decide
  simp only [State.windowByte]
  generalize regAt (off / 8) = r at hreg
  cases r <;> simp_all [State.readReg]

/-- Settles O26, from the frame of each phase. -/
theorem drawStepFrame : Obligations.DrawStepFrame := by
  intro i s t hd h
  rw [exec_draw hd] at h
  have hf := (drawStep_inv h).frame
  exact ⟨hf.arg, hf.ovr, hf.cfg, hf.inputs, hf.response, hf.tvSamples, hf.draws, hf.result, hf.latches, hf.seed, hf.queue,
    hf.window, hf.flags, fun _ hoff hout => windowByte_congr hoff hout hf.arg hf.cfg⟩

/-! ### RESULT and SEED -/

/-- FINISH is the only step of its phase (R166). -/
theorem DrawStep.of_finish {i : Instr} {f : Word → Word → Word} {s t : State} (h : DrawStep i f s t)
    (hp : s.phase = .finish) : t = s.finish (f s.d0 s.d1) := by
  cases h with
  | finish _ => rfl
  | accept h' | refill _ h' | expand h' | emit h' | take _ h' => rw [hp] at h'; cases h'

/-- Settles O38: in every case of a step but reset and FINISH, RESULT keeps its value. -/
theorem resultIsWrittenOnlyByCompletedDraws : Obligations.ResultIsWrittenOnlyByCompletedDraws := by
  intro s t h hne
  cases step_inv h with
  | engineBusy rest i _ _ _ hcmd _ hdraw =>
    by_cases hp : s.phase = .finish
    · obtain rfl := hdraw.of_finish hp
      exact .inr ⟨hp, rfl, rfl, rfl, i, hcmd, rfl⟩
    · exact absurd (hdraw.frame.result hp) hne
  | reset rest hin => exact .inl ⟨rest, hin⟩
  | write k data rest =>
    obtain ⟨_, _, _, he⟩ := writeReg_touches (s.withInputs rest) (regAt k) data
    exact absurd (by rw [he]; rfl) hne
  | draw c i rest =>
    obtain ⟨_, _, _, _, _, _, _, he⟩ := acceptDraw_touches i ((s.withInputs rest).respond .written)
    exact absurd (by rw [he]; rfl) hne
  | engineIdle | busError | read | overrun | illegal | seedLoad | seedTime => simp at hne

/-- The command words of the two seed commands (R89). -/
theorem seedLoad_word {c : Word} (h : decode c = .ok .seedLoad) : c = 1 :=
  (encode_of_decode h).1.symm.trans (by decide)

theorem seedTime_word {c : Word} (h : decode c = .ok .seedTime) : c = 2 :=
  (encode_of_decode h).1.symm.trans (by decide)

/-- Settles O40: SEED changes in REFILL's advance, in the two constructions and in reset, and in no other case of a step. -/
theorem seedIsWrittenOnlyByAdvanceAndSeedCommands : Obligations.SeedIsWrittenOnlyByAdvanceAndSeedCommands := by
  intro s t h hne
  cases step_inv h with
  | engineBusy rest i _ _ _ _ _ hdraw =>
    by_cases hp : s.phase = .refill
    · cases hdraw with
      | refill w _ _ =>
        obtain ⟨-, he⟩ | ⟨-, -, he⟩ | ⟨-, -, he⟩ := refill_cases (s.withInputs rest) w <;> rw [he] at hne ⊢
        · simp at hne
        · simp at hne
        · exact .inl ⟨hp, rfl, rfl⟩
      | accept h' | expand h' | emit h' | take _ h' | finish h' => exact absurd (hp.symm.trans h') (by decide)
    · exact absurd (hdraw.frame.seed hp) hne
  | reset rest hin => exact .inr (.inr ⟨rest, hin⟩)
  | write k data rest =>
    obtain ⟨_, _, _, he⟩ := writeReg_touches (s.withInputs rest) (regAt k) data
    exact absurd (by rw [he]; rfl) hne
  | draw c i rest =>
    obtain ⟨_, _, _, _, _, _, _, he⟩ := acceptDraw_touches i ((s.withInputs rest).respond .written)
    exact absurd (by rw [he]; rfl) hne
  | seedLoad c rest hin hp hdec => exact .inr (.inl ⟨hp, c, rest, hin, .inl ⟨seedLoad_word hdec, rfl⟩⟩)
  | seedTime c rest hin hp hdec => exact .inr (.inl ⟨hp, c, rest, hin, .inr ⟨seedTime_word hdec, rfl⟩⟩)
  | engineIdle | busError | read | overrun | illegal => simp at hne

/-! ### The sticky flags -/

/-- `fail` has just run in state t (R205): the generator is unseeded and FATAL, with one of the two codes of `fail`. -/
def FailedNow (t : State) : Prop :=
  t.fatal = true ∧ t.seeded = false ∧ (t.err = .fatalGeneration ∨ t.err = .expandOverflow)

/-- A step of a draw command keeps SEEDED and FATAL, or is the `fail` of REFILL or EXPAND. -/
theorem DrawStep.flags_cases {i : Instr} {f : Word → Word → Word} {s t : State} (h : DrawStep i f s t) :
    (t.seeded = s.seeded ∧ t.fatal = s.fatal) ∨ ((s.phase = .refill ∨ s.phase = .expand) ∧ FailedNow t) := by
  cases h with
  | refill w hp _ =>
    obtain ⟨-, he⟩ | ⟨-, -, he⟩ | ⟨-, -, he⟩ := refill_cases s w <;> rw [he]
    · exact .inl ⟨rfl, rfl⟩
    · exact .inr ⟨.inl hp, rfl, rfl, .inl rfl⟩
    · exact .inl ⟨rfl, rfl⟩
  | expand hp =>
    obtain ⟨-, he⟩ | ⟨-, -, -, he⟩ | ⟨-, -, he⟩ | ⟨-, -, -, he⟩ := expand_cases s <;> rw [he]
    · exact .inr ⟨.inr hp, rfl, rfl, .inl rfl⟩
    · exact .inr ⟨.inr hp, rfl, rfl, .inr rfl⟩
    · exact .inl (by simp)
    · exact .inl (by simp)
  | accept hp => exact .inl ((DrawStep.accept (i := i) (f := f) hp).frame.flags (by simp [hp]) (by simp [hp]))
  | emit hp => exact .inl (by simp)
  | take w hp _ _ => exact .inl (by simp [takeSubDraw_eq])
  | finish hp => exact .inl (by simp)

/-- Everything a step can do to SEEDED and FATAL (R41). -/
theorem StepCase.flags_cases {s t : State} (h : StepCase s t) :
    (t.seeded = s.seeded ∧ t.fatal = s.fatal) ∨
    ((s.phase = .refill ∨ s.phase = .expand) ∧ FailedNow t) ∨
    ((∃ rest, s.inputs = .rst :: rest) ∧ t.seeded = false ∧ t.fatal = false) ∨
    ((s.phase = .idle ∧ ∃ c rest, s.inputs = hostWrite s.cfg.base 0 c :: rest ∧ (c = 1 ∨ c = 2)) ∧
      t.seeded = true ∧ t.fatal = false) := by
  cases h with
  | engineBusy rest i _ _ _ _ _ hdraw => exact hdraw.flags_cases.imp_right .inl
  | reset rest hin => exact .inr (.inr (.inl ⟨⟨rest, hin⟩, rfl, rfl⟩))
  | seedLoad c rest hin hp hdec =>
    exact .inr (.inr (.inr ⟨⟨hp, c, rest, hin, .inl (seedLoad_word hdec)⟩, rfl, rfl⟩))
  | seedTime c rest hin hp hdec =>
    exact .inr (.inr (.inr ⟨⟨hp, c, rest, hin, .inr (seedTime_word hdec)⟩, rfl, rfl⟩))
  | write k data rest =>
    obtain ⟨_, _, _, he⟩ := writeReg_touches (s.withInputs rest) (regAt k) data
    exact .inl (by rw [he]; exact ⟨rfl, rfl⟩)
  | draw c i rest =>
    obtain ⟨_, _, _, _, _, _, _, he⟩ := acceptDraw_touches i ((s.withInputs rest).respond .written)
    exact .inl (by rw [he]; exact ⟨rfl, rfl⟩)
  | engineIdle | busError | read | overrun | illegal => exact .inl ⟨rfl, rfl⟩

/-- The only clear of OVR by a host write (R26). -/
theorem State.writeReg_ovr (s : State) (r : Reg) (data : Word) :
    (s.writeReg r data).ovr = if r = .status ∧ data.getLsbD 4 = true then false else s.ovr := by
  cases r with
  | status => simp only [State.writeReg, State.writeStatus_eq, true_and]
  | cmd | arg | result | qcount | abort | param | reserved => rfl

theorem regAt_status {k : Nat} (h : regAt k = .status) : k = 3 := by
  unfold regAt at h; split at h <;> simp_all

/-- Everything a step can do to OVR (R41, R45, R26). -/
theorem StepCase.ovr_cases {s t : State} (h : StepCase s t) :
    t.ovr = s.ovr ∨
    ((s.phase ≠ .idle ∧ ∃ c rest, s.inputs = hostWrite s.cfg.base 0 c :: rest) ∧ t.ovr = true) ∨
    (((∃ rest, s.inputs = .rst :: rest) ∨
      (∃ data rest, s.inputs = hostWrite s.cfg.base 3 data :: rest ∧ data.getLsbD 4 = true)) ∧ t.ovr = false) := by
  cases h with
  | engineBusy rest i _ _ _ _ _ hdraw => exact .inl hdraw.frame.ovr
  | reset rest hin => exact .inr (.inr ⟨.inl ⟨rest, hin⟩, rfl⟩)
  | overrun c rest hin hp => exact .inr (.inl ⟨⟨hp, c, rest, hin⟩, rfl⟩)
  | write k data rest h0 hk hin =>
    have hovr := (s.withInputs rest).writeReg_ovr (regAt k) data
    split at hovr
    · next hclear => exact .inr (.inr ⟨.inr ⟨data, rest, regAt_status hclear.1 ▸ hin, hclear.2⟩, hovr⟩)
    · exact .inl hovr
  | draw c i rest =>
    obtain ⟨_, _, _, _, _, _, _, he⟩ := acceptDraw_touches i ((s.withInputs rest).respond .written)
    exact .inl (by rw [he]; rfl)
  | engineIdle | busError | read | illegal | seedLoad => exact .inl rfl
  | seedTime => exact .inl (by simp)

/-- Settles O41, from `StepCase.flags_cases` and `StepCase.ovr_cases`. -/
theorem stickyFlagsChangeOnlyAsStated : Obligations.StickyFlagsChangeOnlyAsStated := by
  intro s t h
  have hflags := (step_inv h).flags_cases
  have hovr := (step_inv h).ovr_cases
  refine ⟨fun h0 h1 => ?_, fun h0 h1 => ?_, fun h0 h1 => ?_, fun h0 h1 => ?_, fun h0 h1 => ?_, fun h0 h1 => ?_⟩
  · obtain ⟨hs, -⟩ | ⟨-, -, hs, -⟩ | ⟨-, hs, -⟩ | ⟨hcmd, -, -⟩ := hflags
    case inr.inr.inr => exact hcmd
    all_goals simp [hs, h0] at h1
  · obtain ⟨hs, -⟩ | ⟨hphase, hf, -, herr⟩ | ⟨hreset, -, -⟩ | ⟨-, hs, -⟩ := hflags
    case inr.inl => exact .inr ⟨hphase, hf, herr⟩
    case inr.inr.inl => exact .inl hreset
    all_goals simp [hs, h0] at h1
  · obtain ⟨-, hf⟩ | ⟨hphase, -, hs, herr⟩ | ⟨-, -, hf⟩ | ⟨-, -, hf⟩ := hflags
    case inr.inl => exact ⟨hphase, hs, herr⟩
    all_goals simp [hf, h0] at h1
  · obtain ⟨-, hf⟩ | ⟨-, hf, -⟩ | ⟨hreset, -, -⟩ | ⟨hcmd, -, -⟩ := hflags
    case inr.inr.inl => exact .inl hreset
    case inr.inr.inr => exact .inr hcmd
    all_goals simp [hf, h0] at h1
  · obtain ho | ⟨hoverrun, -⟩ | ⟨-, ho⟩ := hovr
    case inr.inl => exact hoverrun
    all_goals simp [ho, h0] at h1
  · obtain ho | ⟨-, ho⟩ | ⟨hclear, -⟩ := hovr
    case inr.inr => exact hclear
    all_goals simp [ho, h0] at h1

end Sys2Proof.Machine
end

section
/-! Hidden state stays hidden (R30, R32, R61, R232): two states a host cannot tell apart take the same step, to states a host
cannot tell apart. -/

namespace Sys2Proof.Machine

/-- The part of `ObservablyEqual` that does not depend on a running command: all of it in IDLE. -/
structure VisiblyEqual (s t : State) : Prop where
  arg : s.arg = t.arg
  result : s.result = t.result
  done : s.done = t.done
  seeded : s.seeded = t.seeded
  fatal : s.fatal = t.fatal
  ovr : s.ovr = t.ovr
  err : s.err = t.err
  queue : s.queue = t.queue
  stack : s.stack = t.stack
  abt : s.abt = t.abt
  phase : s.phase = t.phase
  cfg : s.cfg = t.cfg
  inputs : s.inputs = t.inputs
  response : s.response = t.response
  tvSamples : s.tvSamples = t.tvSamples
  draws : s.draws = t.draws
  seed : s.seeded = true → s.seed = t.seed

/-- In IDLE the latches, the expander and the sub-draw registers count for nothing. -/
theorem ObservablyEqual.of_idle {s t : State} (hp : s.phase = .idle) (h : VisiblyEqual s t) : ObservablyEqual s t :=
  { h with
    v := fun he => by rw [hp] at he; cases he
    podd := fun he => by rw [hp] at he; cases he
    lcmd := fun hn => absurd hp hn
    larg := fun hn => absurd hp hn
    sub := fun hn => absurd hp hn
    d0 := fun hn => absurd hp hn
    d1 := fun hn => absurd hp hn }

/-- RESULT of a draw with one sub-draw does not depend on D1 (R167 to R175, R178). -/
theorem drawResult_single {i : Instr} (h : (subDrawWidths i).length = 1) (c : Config) (larg d0 d1 d1' : Word) :
    drawResult i c larg d0 d1 = drawResult i c larg d0 d1' := by
  cases i with
  | nextLong | nextLongLim | nextDouble => simp [subDrawWidths] at h
  | _ => rfl

/-- Two branches on conditions that agree. -/
theorem ObservablyEqual.ite {p q : Prop} [Decidable p] [Decidable q] {a b a' b' : State} (hpq : p ↔ q)
    (hpos : ObservablyEqual a b) (hneg : ObservablyEqual a' b') :
    ObservablyEqual (if p then a else a') (if q then b else b') := by
  by_cases hp : p
  · rwa [if_pos hp, if_pos (hpq.mp hp)]
  · rwa [if_neg hp, if_neg (mt hpq.mpr hp)]

/-- Two outcomes a host cannot tell apart. -/
inductive OutcomesAgree : StepOutcome → StepOutcome → Prop where
  | next {s t : State} : ObservablyEqual s t → OutcomesAgree (.next s) (.next t)
  | fault (f : Fault) : OutcomesAgree (.fault f) (.fault f)
  | refused (r : Refusal) : OutcomesAgree (.refused r) (.refused r)

theorem OutcomesAgree.of_next {s : State} {o : StepOutcome} (h : OutcomesAgree (.next s) o) :
    ∃ t, o = .next t ∧ ObservablyEqual s t := by
  cases h with
  | next h' => exact ⟨_, rfl, h'⟩

theorem OutcomesAgree.of_fault {f : Fault} {o : StepOutcome} (h : OutcomesAgree (.fault f) o) : o = .fault f := by
  cases h with
  | fault => rfl

namespace ObservablyEqual

variable {s t : State} (h : ObservablyEqual s t)
include h

theorem visible : VisiblyEqual s t := { h with }

/-! ### What is read -/

theorem busy : s.busy = t.busy := by rw [State.busy, State.busy, h.phase]

theorem readReg (r : Reg) : s.readReg r = t.readReg r := by
  cases r with
  | arg => exact h.arg
  | result => exact h.result
  | status => simp only [State.readReg, State.statusWord, h.err, h.ovr, h.fatal, h.seeded, h.done, h.busy]
  | qcount => simp only [State.readReg, h.queue]
  | param => simp only [State.readReg, h.cfg]
  | cmd | abort | reserved => rfl

theorem runningCommand (hbusy : s.phase ≠ .idle) : s.runningCommand = t.runningCommand := by
  simp only [State.runningCommand, h.lcmd hbusy]

theorem tvIn : s.tvIn = t.tvIn := by simp only [State.tvIn, h.tvSamples, h.draws]

/-- RESULT at FINISH reads D0, and D1 only in a command of two sub-draws, which has written it by then (R161). -/
theorem drawResult {i : Instr} (hr : Running i s) (hp : s.phase = .finish) :
    drawResult i s.cfg s.larg s.d0 s.d1 = drawResult i t.cfg t.larg t.d0 t.d1 := by
  have hbusy : s.phase ≠ .idle := by rw [hp]; decide
  have hdone : subDrawsDone s = s.sub.val + 1 := if_pos hp
  rw [← h.cfg, ← h.larg hbusy, ← h.d0 hbusy (by omega)]
  by_cases hsub : s.sub = 0
  · exact drawResult_single (by rw [← hr.lastSubDraw hp, hsub]; rfl) _ _ _ _ _
  · rw [← h.d1 hbusy (by omega)]

/-! ### Host accesses -/

theorem withInputs (rest : List Input) : ObservablyEqual (s.withInputs rest) (t.withInputs rest) := { h with inputs := rfl }

theorem respond (r : Response) : ObservablyEqual (s.respond r) (t.respond r) := { h with response := rfl }

theorem overrun : ObservablyEqual s.overrun t.overrun := { h with ovr := rfl }

theorem writeReg (r : Reg) (data : Word) : ObservablyEqual (s.writeReg r data) (t.writeReg r data) := by
  cases r with
  | arg => exact { h with arg := rfl }
  | status => exact { h with ovr := congrArg (· && !data.getLsbD 4) h.ovr }
  | abort => exact { h with abt := congrArg₂ (fun a b => a || (b && data.getLsbD 0)) h.abt h.busy }
  | cmd | result | qcount | param | reserved => exact h

/-! ### Steps that end in IDLE -/

theorem fail (code : ErrCode) : ObservablyEqual (s.fail code) (t.fail code) :=
  .of_idle rfl { h.visible with
    stack := rfl, err := rfl, fatal := rfl, seeded := rfl, done := rfl, abt := rfl, phase := rfl, seed := nofun }

theorem finish {a b : Word} (hresult : a = b) : ObservablyEqual (s.finish a) (t.finish b) :=
  .of_idle rfl { h.visible with result := hresult, err := rfl, done := rfl, abt := rfl, phase := rfl }

theorem reject (hp : s.phase = .idle) (c : Word) (code : ErrCode) :
    ObservablyEqual ((s.latchCommand c).reject code) ((t.latchCommand c).reject code) :=
  .of_idle hp { h.visible with abt := rfl, done := rfl, err := rfl }

theorem latchCommand (hp : s.phase = .idle) (c : Word) : ObservablyEqual (s.latchCommand c) (t.latchCommand c) :=
  .of_idle hp { h.visible with abt := rfl, done := rfl }

theorem construct {a b : Word} (hseed : a = b) : ObservablyEqual (s.construct a) (t.construct b) :=
  .of_idle rfl { h.visible with
    queue := rfl, seeded := rfl, fatal := rfl, err := rfl, done := rfl, abt := rfl, phase := rfl, seed := fun _ => hseed }

theorem tvTaken (hp : s.phase = .idle) : ObservablyEqual s.tvTaken t.tvTaken := by
  rw [State.tvTaken_eq, State.tvTaken_eq, ← h.tvSamples, ← h.draws]
  exact .of_idle hp { h.visible with tvSamples := rfl, draws := rfl }

theorem resetEvent : ObservablyEqual s.resetEvent t.resetEvent :=
  .of_idle rfl { h.visible with
    arg := rfl, result := rfl, done := rfl, seeded := rfl, fatal := rfl, ovr := rfl, err := rfl, queue := rfl, stack := rfl
    abt := rfl, phase := rfl, seed := nofun, draws := congrArg (· + 1) h.draws }

/-! ### The micro-steps -/

/-- A micro-step before FINISH, TAKE aside: it writes only the phase, the expander and the queue. -/
theorem microStep (hbusy : s.phase ≠ .idle) (hfin : s.phase ≠ .finish) {p p' : Phase}
    {queue queue' stack stack' : List Bool} {sd sd' : Word} {v v' : Nat} {podd podd' : Bool} (hp : p ≠ .finish)
    (hphase : p = p') (hqueue : queue = queue') (hstack : stack = stack') (hseed : s.seeded = true → sd = sd')
    (hv : p = .expand → v = v') (hpodd : p = .expand → podd = podd') :
    ObservablyEqual { s with phase := p, seed := sd, queue := queue, stack := stack, v := v, podd := podd }
      { t with phase := p', seed := sd', queue := queue', stack := stack', v := v', podd := podd' } := by
  have hdone : subDrawsDone { s with phase := p, seed := sd, queue := queue, stack := stack, v := v, podd := podd } =
      subDrawsDone s := by simp [subDrawsDone, hp, hfin]
  exact { h with
    phase := hphase, queue := hqueue, stack := hstack, seed := hseed, v := hv, podd := hpodd
    lcmd := fun _ => h.lcmd hbusy, larg := fun _ => h.larg hbusy, sub := fun _ => h.sub hbusy
    d0 := fun _ hn => h.d0 hbusy (by rwa [hdone] at hn)
    d1 := fun _ hn => h.d1 hbusy (by rwa [hdone] at hn) }

/-- REFILL of a running command (R141): the advance reads SEED, which counts while SEEDED. -/
theorem refill (hseeded : s.seeded = true) (hp : s.phase = .refill) (w : Nat) :
    ObservablyEqual (s.refill w) (t.refill w) := by
  have hbusy : s.phase ≠ .idle := by rw [hp]; decide
  have hfin : s.phase ≠ .finish := by rw [hp]; decide
  have hadvance : advanceSeed s.seed = advanceSeed t.seed := congrArg advanceSeed (h.seed hseeded)
  exact .ite (by rw [h.queue])
    (h.microStep hbusy hfin (by decide) rfl h.queue h.stack h.seed nofun nofun)
    (.ite (by rw [h.abt])
      (h.fail _)
      (h.microStep hbusy hfin (by decide) rfl h.queue rfl (fun _ => hadvance) (fun _ => by rw [hadvance, h.cfg])
        (fun _ => rfl)))

/-- The comparator and the next element (R125) read V, which counts in EXPAND. -/
theorem nextElement (hp : s.phase = .expand) : ObservablyEqual s.nextElement t.nextElement := by
  have hbusy : s.phase ≠ .idle := by rw [hp]; decide
  have hfin : s.phase ≠ .finish := by rw [hp]; decide
  exact .ite (by rw [h.v hp])
    (h.microStep hbusy hfin (by decide) rfl h.queue h.stack h.seed nofun nofun)
    (.ite (by rw [h.v hp])
      (h.microStep hbusy hfin hfin h.phase h.queue h.stack h.seed (fun _ => by rw [h.v hp]) (fun _ => rfl))
      (h.microStep hbusy hfin hfin h.phase h.queue h.stack h.seed (fun _ => by rw [h.v hp, h.cfg]) (fun _ => rfl)))

/-- EXPAND (R125). -/
theorem expand (hp : s.phase = .expand) : ObservablyEqual s.expand t.expand := by
  have hpush : ObservablyEqual s.pushParity t.pushParity :=
    { h with stack := by rw [State.pushParity_stack, State.pushParity_stack, h.v hp, h.stack] }
  exact .ite (by rw [h.abt])
    (h.fail _)
    (.ite (by rw [h.podd hp])
      (h.nextElement hp)
      (.ite (by rw [h.stack, h.cfg])
        (h.fail _)
        (hpush.nextElement hp)))

/-- EMIT (R126). -/
theorem emit (hp : s.phase = .emit) : ObservablyEqual s.emit t.emit :=
  h.microStep (by rw [hp]; decide) (by rw [hp]; decide) (by decide) rfl (by rw [h.queue, h.stack]) rfl h.seed nofun nofun

/-- TAKE (R161) writes the register of the current sub-draw from the queue; the other counts only if it was written before. -/
theorem takeSubDraw (hp : s.phase = .take) (w : Nat) (more : Bool) :
    ObservablyEqual (s.takeSubDraw w more) (t.takeSubDraw w more) := by
  have hbusy : s.phase ≠ .idle := by rw [hp]; decide
  have hdone : subDrawsDone s = s.sub.val := by simp [subDrawsDone, hp]
  rw [takeSubDraw_eq, takeSubDraw_eq, ← h.sub hbusy]
  refine { h with
    queue := congrArg (List.drop 48) h.queue, phase := rfl, lcmd := fun _ => h.lcmd hbusy, larg := fun _ => h.larg hbusy
    sub := fun _ => rfl, v := fun he => ?_, podd := fun he => ?_, d0 := fun _ _ => ?_, d1 := fun _ hn => ?_ }
  · cases more <;> cases he
  · cases more <;> cases he
  · dsimp only
    split
    · rw [h.queue]
    · exact h.d0 hbusy (by omega)
  · dsimp only
    split
    · next h0 => cases more <;> simp [subDrawsDone, h0] at hn
    · rw [h.queue]

/-- Acceptance of a draw command (R44). -/
theorem acceptDraw (hp : s.phase = .idle) (i : Instr) : ObservablyEqual (acceptDraw i s) (acceptDraw i t) := by
  have haccepted : ObservablyEqual { s.latchCommand (encode i) with phase := .refill }
      { t.latchCommand (encode i) with phase := .refill } :=
    { (h.latchCommand hp (encode i)).visible with
      phase := rfl, v := nofun, podd := nofun, lcmd := fun _ => rfl, larg := fun _ => h.arg, sub := fun _ => rfl
      d0 := fun _ hn => by simp [subDrawsDone] at hn
      d1 := fun _ hn => by simp [subDrawsDone] at hn }
  exact .ite Iff.rfl (h.reject hp _ _)
    (.ite (by rw [h.seeded]) (h.reject hp _ _)
      (.ite (by rw [h.arg]) (h.reject hp _ _) haccepted))

/-! ### One step -/

/-- The engine's turn on a running command (R40). -/
theorem drawStep_running {i : Instr} (hr : Running i s) (hbusy : s.phase ≠ .idle) :
    OutcomesAgree (drawStep i (Machine.drawResult i s.cfg s.larg) s) (drawStep i (Machine.drawResult i t.cfg t.larg) t) := by
  obtain ⟨w, hw, -⟩ := hr.width
  have hw' : subDrawWidth i t.sub = some w := h.sub hbusy ▸ hw
  unfold drawStep
  rw [← h.phase]
  cases hp : s.phase with
  | idle => exact absurd hp hbusy
  | refill =>
    simp only [refillStep, hw, hw']
    exact .next (h.refill hr.seeded hp w)
  | expand => exact .next (h.expand hp)
  | emit => exact .next (h.emit hp)
  | take =>
    simp only [takeStep, hw, ← h.queue, ← h.sub hbusy]
    split
    · exact .fault _
    · exact .next (h.takeSubDraw hp w _)
  | finish => exact .next (h.finish (h.drawResult hr hp))

theorem engineTurn (hinv : Inv s) : OutcomesAgree (engineTurn exec s) (engineTurn exec t) := by
  by_cases hp : s.phase = .idle
  · rw [engineTurn_idle hp, engineTurn_idle (h.phase ▸ hp)]
    exact .next h
  · obtain ⟨i, hr⟩ := hinv.running hp
    have hd := runningCommand_isDraw hr.command
    rw [engineTurn_busy hp hr.command, engineTurn_busy (h.phase ▸ hp) (h.runningCommand hp ▸ hr.command), exec_draw hd,
      exec_draw hd]
    exact h.drawStep_running hr hp

/-- A CMD write, whatever the word (R44, R45). -/
theorem commandWrite (c : Word) : OutcomesAgree (commandWrite exec c s) (commandWrite exec c t) := by
  by_cases hp : s.phase = .idle
  · have hp' : t.phase = .idle := h.phase ▸ hp
    cases hdec : decode c with
    | error e =>
      rw [commandWrite_error hp hdec, commandWrite_error hp' hdec]
      exact .next (h.reject hp c _)
    | ok i =>
      rw [commandWrite_ok hp hdec, commandWrite_ok hp' hdec]
      cases hd : isDraw i with
      | true =>
        rw [exec_draw_idle hd hp, exec_draw_idle hd hp']
        exact .next (h.acceptDraw hp i)
      | false =>
        cases i <;> simp only [isDraw, Bool.true_eq_false] at hd
        · rw [exec_seedLoad_idle hp, exec_seedLoad_idle hp']
          exact .next ((h.latchCommand hp _).construct h.arg)
        · rw [exec_seedTime_idle hp, exec_seedTime_idle hp']
          exact .next (((h.latchCommand hp _).tvTaken hp).construct (by rw [h.tvIn, h.cfg]))
  · rw [commandWrite_busy hp, commandWrite_busy (h.phase ▸ hp)]
    exact .next h.overrun

theorem registerAccess (r : Reg) (kind : AccessKind) :
    OutcomesAgree (registerAccess exec r kind s) (registerAccess exec r kind t) := by
  cases kind with
  | read =>
    unfold Machine.registerAccess
    rw [← h.readReg]
    exact .next (h.respond _)
  | write data =>
    cases r with
    | cmd => exact (h.respond .written).commandWrite data
    | arg | result | status | qcount | abort | param | reserved => exact .next ((h.writeReg _ data).respond .written)

theorem hostAccess (a : Access) : OutcomesAgree (hostAccess exec a s) (hostAccess exec a t) := by
  unfold Machine.hostAccess
  rw [← h.cfg]
  cases selectReg s.cfg.base a.addr a.size with
  | outside => exact .fault _
  | refused => exact .next (h.respond _)
  | reg r => exact h.registerAccess r a.kind

/-- One step of two states a host cannot tell apart. -/
theorem step (hinv : Inv s) : OutcomesAgree (step s) (step t) := by
  rw [step_of_legal hinv.legal, step_of_legal (h.cfg ▸ hinv.legal), ← h.inputs]
  rcases s.inputs with _ | ⟨_ | a | _, rest⟩
  · exact h.engineTurn hinv
  · exact (h.withInputs rest).engineTurn (hinv.withInputs rest)
  · exact (h.withInputs rest).hostAccess a
  · exact .next (h.withInputs rest).resetEvent

end ObservablyEqual

/-- Settles O43: host reads agree by `ObservablyEqual.readReg`, and steps by `ObservablyEqual.step`. -/
theorem hiddenStateIsNeverObserved : Obligations.HiddenStateIsNeverObserved := by
  intro s t hinv _ h
  have hstep := h.step hinv
  refine ⟨h.readReg, fun s' hs => ?_, fun f hs => ?_⟩ <;> rw [hs] at hstep
  · exact hstep.of_next
  · exact hstep.of_fault

end Sys2Proof.Machine
end

section
/-! The bus port (20_memory.md): which accesses reach no register (R60, R63), the byte lanes of one that does (R64), and what a host
can see move while a command runs (R68). -/

namespace Sys2Proof.Machine

/-! ### Accesses that reach no register -/

/-- An address below or above the window is not decoded (R60). -/
theorem selectReg_outside {base addr : Nat} (size : Nat) (h : addr < base ∨ base + 64 ≤ addr) :
    selectReg base addr size = .outside := if_pos h

/-- A narrow or misaligned access inside the window is refused (R63). -/
theorem selectReg_refused {base addr size : Nat} (hlow : base ≤ addr) (hhigh : addr < base + 64)
    (h : size ≠ 8 ∨ (addr - base) % 8 ≠ 0) : selectReg base addr size = .refused := by
  unfold selectReg
  rw [if_neg (by omega), if_pos h]

/-- When the next input is a host access, the step is that access, whatever a command is doing (R66, R68). -/
theorem step_bus {s : State} {a : Access} {rest : List Input} (hlegal : s.cfg.Legal) (hin : s.inputs = .bus a :: rest) :
    step s = hostAccess exec a (s.withInputs rest) := by
  rw [step_of_legal hlegal, hin]

/-- Settles O30: `selectReg` refuses the access, and a refused access only answers the bus. -/
theorem narrowOrMisalignedAccessIsRefused : Obligations.NarrowOrMisalignedAccessIsRefused := by
  intro s a rest hlegal hlow hhigh hbad hin
  rw [step_bus hlegal hin, hostAccess, selectReg_refused hlow hhigh hbad]
  rfl

/-- Settles O31: `selectReg` finds the address outside the window, where the model stops. -/
theorem accessOutsideTheWindowIsNotDecoded : Obligations.AccessOutsideTheWindowIsNotDecoded := by
  intro s a rest hlegal hout hin
  rw [step_bus hlegal hin, hostAccess, selectReg_outside a.size hout]

/-! ### Byte lanes -/

/-- Byte j of a number in little-endian order is its digit of weight 256^j (R64). -/
theorem bytesOf_eq_map_range (n x : Nat) : bytesOf n x = (List.range n).map fun j => BitVec.ofNat 8 (x / 256 ^ j) := by
  induction n generalizing x with
  | zero => rfl
  | succ n ih => simp [bytesOf, ih, List.range_succ_eq_map, Function.comp_def, Nat.div_div_eq_div_mul, pow_succ']

/-- The byte at offset 8k + j is bits 8j to 8j+7 of the register at offset 8k (R64). -/
theorem windowByte_lane (s : State) (k : Nat) {j : Nat} (hj : j < 8) :
    s.windowByte (8 * k + j) = (s.readReg (regAt k)).extractLsb' (8 * j) 8 := by
  have hreg : (8 * k + j) / 8 = k := by omega
  have hlane : (8 * k + j) % 8 = j := by omega
  rw [State.windowByte, hreg, hlane]

/-- The eight lanes of a register, lowest address first, are the eight bytes of its value (R64). -/
theorem windowByte_lanes (s : State) (k : Nat) :
    ((List.range 8).map fun j => s.windowByte (8 * k + j)) = bytesOf 8 (s.readReg (regAt k)).toNat := by
  rw [bytesOf_eq_map_range]
  refine List.map_congr_left fun j hj => ?_
  rw [windowByte_lane s k (List.mem_range.mp hj), BitVec.extractLsb', Nat.shiftRight_eq_div_pow, pow_mul]
  norm_num

/-- Settles O34: `windowByte_lanes` gives the value, `windowByte_lane` the bits of each lane. -/
theorem byteLanesAreLittleEndian : Obligations.ByteLanesAreLittleEndian := by
  refine fun s k _ => ⟨?_, fun j b hj hb => ?_⟩
  · rw [windowByte_lanes, wordOfBytes_bytesOf]
    exact Nat.mod_eq_of_lt (s.readReg (regAt k)).isLt
  · rw [windowByte_lane s k hj, BitVec.getLsbD_extractLsb', decide_eq_true hb, Bool.true_and]

/-! ### What a host sees move while a command runs -/

/-- With no access and no reset next, the step is the engine's turn (R15, R68). -/
theorem step_engine {s : State} (hlegal : s.cfg.Legal) (hin : s.inputs = [] ∨ ∃ rest, s.inputs = .engine :: rest) :
    ∃ rest, step s = engineTurn exec (s.withInputs rest) := by
  obtain hnil | ⟨rest, hcons⟩ := hin
  · have hself : s.withInputs [] = s := by rw [← hnil]
    exact ⟨[], by rw [step_of_legal hlegal, hnil, hself]⟩
  · exact ⟨rest, by rw [step_of_legal hlegal, hcons]⟩

/-- A micro-step that does not end the command writes none of DONE, SEEDED, FATAL and ERR: only `fail` and `complete OK` do, and
they go to IDLE (R46, R205). -/
theorem DrawStep.flags_of_busy {i : Instr} {f : Word → Word → Word} {s t : State} (h : DrawStep i f s t)
    (hs : s.phase ≠ .idle) (ht : t.phase ≠ .idle) :
    t.done = s.done ∧ t.seeded = s.seeded ∧ t.fatal = s.fatal ∧ t.err = s.err := by
  cases h with
  | accept hp => exact absurd hp hs
  | refill w _ _ =>
    obtain ⟨-, he⟩ | ⟨-, -, he⟩ | ⟨-, -, he⟩ := refill_cases s w <;> rw [he] at ht ⊢
    · exact ⟨rfl, rfl, rfl, rfl⟩
    · exact absurd rfl ht
    · exact ⟨rfl, rfl, rfl, rfl⟩
  | expand _ =>
    obtain ⟨-, he⟩ | ⟨-, -, -, he⟩ | ⟨-, -, he⟩ | ⟨-, -, -, he⟩ := expand_cases s <;> rw [he] at ht ⊢
    · exact absurd rfl ht
    · exact absurd rfl ht
    · simp
    · simp
  | emit _ => exact ⟨rfl, rfl, rfl, rfl⟩
  | take w _ _ _ => simp [takeSubDraw_eq]
  | finish _ => exact absurd rfl ht

/-- A micro-step that does not end the command keeps every register a host reads but QCOUNT (R68). -/
theorem DrawStep.readReg_of_busy {i : Instr} {f : Word → Word → Word} {s t : State} (h : DrawStep i f s t)
    (hs : s.phase ≠ .idle) (ht : t.phase ≠ .idle) {r : Reg} (hr : r ≠ .qcount) : t.readReg r = s.readReg r := by
  have hframe := h.frame
  cases r with
  | arg => exact hframe.arg
  | result =>
    refine hframe.result fun hp => ht ?_
    rw [h.of_finish hp]; rfl
  | status =>
    obtain ⟨hdone, hseeded, hfatal, herr⟩ := h.flags_of_busy hs ht
    have hbusy : t.busy = s.busy := by rw [busy_eq_true.mpr hs, busy_eq_true.mpr ht]
    simp only [State.readReg, State.statusWord, herr, hframe.ovr, hfatal, hseeded, hdone, hbusy]
  | qcount => exact absurd rfl hr
  | param => exact congrArg paramWord hframe.cfg
  | cmd | abort | reserved => rfl

/-- Settles O42: the step is a micro-step of the running command that does not end it, and the input it uses up is not a register. -/
theorem onlyQcountMovesWhileBusy : Obligations.OnlyQcountMovesWhileBusy := by
  intro s t hin h hs ht r hr
  obtain ⟨rest, he⟩ := step_engine (step_legal h) hin
  obtain ⟨hidle, -⟩ | ⟨-, i, -, -, hdraw⟩ := engineTurn_inv (he ▸ h)
  · exact absurd hidle hs
  · have hinputs : (s.withInputs rest).readReg r = s.readReg r := by cases r <;> rfl
    exact (hdraw.readReg_of_busy hs ht hr).trans hinputs

end Sys2Proof.Machine
end

section
/-! The command encoding (30_encoding.md): decoding undoes encoding, on a word, on its bytes in memory and on a table word (R80, R64), and
the decoder accepts exactly the legal words (R82). -/

namespace Sys2Proof.Machine

/-! ### Decoding an encoding -/

/-- The word of a well-formed command decodes to that command (R80 to R82). -/
theorem decode_encode {i : Instr} (h : i.wf = true) : decode (encode i) = .ok i := by
  rw [encode, decode_ok, reservedField_commandWord, opcField_commandWord, widthField_commandWord]
  exact ⟨rfl, commandOf_opcode i, legalWidthFor_opcode h⟩

/-- Decoding the eight little-endian bytes of a word is decoding the word (R64). -/
theorem decodeBytes_bytesOf (c : Word) : decodeBytes (bytesOf 8 c.toNat) = decode c := by
  have hvalue : wordOfBytes (bytesOf 8 c.toNat) = c.toNat := by
    rw [wordOfBytes_bytesOf]
    exact Nat.mod_eq_of_lt c.isLt
  rw [decodeBytes, if_pos (length_bytesOf 8 _), hvalue, BitVec.ofNat_toNat, BitVec.setWidth_eq]

/-- The bytes of a 64-bit table word are the eight bytes of the word (R80). -/
theorem tableBytes_toNat (c : Word) : tableBytes 64 c.toNat = bytesOf 8 c.toNat :=
  congrArg (bytesOf 8) (Nat.mod_eq_of_lt c.isLt)

/-- A legal word read as a table word gives the command it decodes to. -/
theorem decodeTableWord_of_decode {c : Word} {i : Instr} (h : decode c = .ok i) :
    decodeTableWord 64 c.toNat = some i := by
  rw [decodeTableWord, tableBytes_toNat, decodeBytes_bytesOf, h]

/-- Settles O7, from `decode_encode`: the bytes and the table word of an encoding stand for the same word. -/
theorem decodingAnEncodingGivesTheCommand : Obligations.DecodingAnEncodingGivesTheCommand := fun i hwf =>
  have hdec := decode_encode hwf
  ⟨hdec, (decodeBytes_bytesOf (encode i)).trans hdec, decodeTableWord_of_decode hdec⟩

/-! ### The legal words -/

/-- Settles O8, by `legalWord_iff_decodes` and `encode_of_decode`. -/
theorem decoderAcceptsExactlyTheLegalWords : Obligations.DecoderAcceptsExactlyTheLegalWords := fun c =>
  ⟨legalWord_iff_decodes c, fun _ hdec => (encode_of_decode hdec).symm⟩

/-- Settles O6: each listed command word is the encoding of its command, so `decode_encode` reads it back; the illegal examples fail the
test of W, RSV or OPC that R82 makes. -/
theorem listedCommandWordsDecode : Obligations.ListedCommandWordsDecode :=
  ⟨decode_encode (i := .seedLoad) rfl, decode_encode (i := .seedTime) rfl, decode_encode (i := .drawBits 1) rfl,
    decode_encode (i := .drawBits 32) rfl, decode_encode (i := .drawBits 48) rfl, decode_encode (i := .nextBool) rfl,
    decode_encode (i := .nextByte) rfl, decode_encode (i := .nextShort) rfl, decode_encode (i := .nextInt) rfl,
    decode_encode (i := .nextLong) rfl, decode_encode (i := .nextShortLim) rfl, decode_encode (i := .nextIntLim) rfl,
    decode_encode (i := .nextLongLim) rfl, decode_encode (i := .nextFloat) rfl, decode_encode (i := .nextDouble) rfl,
    by decide⟩

end Sys2Proof.Machine
end

section
/-! The seed state (40_seed_state.md): the advance (R100 to R102), the two construction commands (R104, R105), what a construction
erases (R107), and the degenerate generator (R102, U9). -/

namespace Sys2Proof.Machine

/-! ### The advance -/

/-- R101's constant inverts MODIFIER mod 2^64. -/
theorem modifier_mul_inverse : modifier * 0x6DCD882D07D6F629#64 = 1#64 := by decide

/-- Multiplying by the inverse undoes the advance (R101). -/
theorem inverse_mul_advanceSeed (a : Word) : 0x6DCD882D07D6F629#64 * advanceSeed a = a := by
  rw [advanceSeed, ← BitVec.mul_assoc, BitVec.mul_comm _ modifier, modifier_mul_inverse, BitVec.one_mul]

/-- The advance undoes multiplying by the inverse (R101). -/
theorem advanceSeed_mul_inverse (a : Word) : advanceSeed (a * 0x6DCD882D07D6F629#64) = a := by
  rw [advanceSeed, BitVec.mul_comm a, ← BitVec.mul_assoc, modifier_mul_inverse, BitVec.one_mul]

theorem advanceSeed_injective : Function.Injective advanceSeed :=
  Function.LeftInverse.injective inverse_mul_advanceSeed

@[simp] theorem advanceSeed_zero : advanceSeed 0 = 0 := BitVec.mul_zero

/-- Settles O45: the advance is a product with a constant that has an inverse mod 2^64. -/
theorem advanceIsABijection : Obligations.AdvanceIsABijection :=
  ⟨fun _ _ h => advanceSeed_injective h, advanceSeed_mul_inverse,
    fun _ => advanceSeed_injective.eq_iff' advanceSeed_zero, by decide⟩

/-! ### The construction commands -/

/-- A construction in IDLE, field by field: `complete OK` leaves the phase where it was (R46, R104, R105). -/
theorem construct_of_idle {s : State} (seed : Word) (hidle : s.phase = .idle) :
    s.construct seed =
      { s with seed := seed, queue := [], seeded := true, fatal := false, err := .ok, done := true, abt := false } := by
  simp only [State.construct, State.completeOk, ← hidle]

/-- A seed command is dropped while a command runs (R45). -/
theorem exec_seed_busy {i : Instr} {s : State} (hseed : isDraw i = false) (hbusy : s.phase ≠ .idle) :
    exec i s = .next s.overrun := by
  cases i <;> simp only [isDraw, Bool.true_eq_false] at hseed
  · exact seedStep_busy hbusy
  · unfold exec execSeedTime
    exact seedStep_busy hbusy

/-- Settles O11: in IDLE the step is the latch and the construction from ARG, else the overrun. -/
theorem seedLoadConstructsTheGenerator : Obligations.SeedLoadConstructsTheGenerator := by
  refine fun s => ⟨fun hidle => ?_, exec_seed_busy rfl⟩
  rw [exec_seedLoad_idle hidle, construct_of_idle _ (by exact hidle)]
  rfl

/-- The step of SEED_TIME in IDLE, for whatever sample `tvIn` is (R42, R105). -/
theorem exec_seedTime_idle_eq {s : State} (hidle : s.phase = .idle) :
    exec .seedTime s = .next
      { s with
        seed := s.tvIn ^^^ s.cfg.seedXor, queue := [], seeded := true, fatal := false, err := .ok, done := true, abt := false
        lcmd := ⟨0x02, 0⟩, larg := s.arg, sub := 0
        tvSamples := s.tvSamples.tail, draws := if s.tvSamples = [] then s.draws + 1 else s.draws } := by
  rw [exec_seedTime_idle hidle, construct_of_idle _ (by simpa using hidle), State.tvTaken_eq]
  rfl

/-- Settles O12, from `exec_seedTime_idle_eq`: the sample is the next listed one, or a free value when none is listed. -/
theorem seedTimeConstructsFromAnySample : Obligations.SeedTimeConstructsFromAnySample := by
  refine fun s => ⟨fun tv more hidle htv => ?_, fun hidle htv => ?_, exec_seed_busy rfl⟩ <;>
    simp [exec_seedTime_idle_eq hidle, State.tvIn, htv]

/-! ### What a construction erases -/

/-- Settles O44: SEED_LOAD writes everything the two states may differ in, but the stack, which Inv keeps empty in IDLE (R47), and what
counts for nothing in IDLE. -/
theorem seedLoadErasesTheGeneratorsHistory : Obligations.SeedLoadErasesTheGeneratorsHistory := by
  intro s t hs ht hps hpt hcfg harg hresult hovr hinputs hresponse htv hdraws
  have hstack : s.stack = t.stack := by
    rw [hs.stackIdle (by rw [hps]; rfl), ht.stackIdle (by rw [hpt]; rfl)]
  exact ⟨_, _, exec_seedLoad_idle hps, exec_seedLoad_idle hpt, .of_idle rfl
    { arg := harg, result := hresult, ovr := hovr, stack := hstack, cfg := hcfg, inputs := hinputs
      response := hresponse, tvSamples := htv, draws := hdraws, seed := fun _ => harg
      done := rfl, seeded := rfl, fatal := rfl, err := rfl, queue := rfl, abt := rfl, phase := rfl }⟩

/-! ### The degenerate generator -/

/-- A window of zeros has sub-draw value 0 (R160). -/
theorem subDrawValue_zeros {queue : List Bool} (h : ∀ b ∈ queue, b = false) (w : Nat) :
    subDrawValue (packWindow (queue.take 48)) w = 0 := by
  have hwindow : natOfBits (queue.take 48) = 0 := natOfBits_zero fun b hb => h b (List.mem_of_mem_take hb)
  simp [subDrawValue, packWindow, hwindow]

/-- Zero is its own bounded value, whatever the limit (R165). -/
theorem boundedOf_zero (m : ModMode) (t : Nat) (l : Int) : boundedOf m t 0 l = 0 := by
  have hmin : (0 : Int) ≠ -(2 ^ (t - 1)) := (neg_ne_zero.mpr (by positivity)).symm
  cases m <;> simp [boundedOf, hmin]

theorem signedOf_zero (t : Nat) : signedOf t 0 = 0 := by simp [signedOf]

theorem longOf_zero (m : LongCombine) : longOf m 0#64 0#64 = 0#64 := by cases m <;> rfl

/-- Every draw command makes 0 of sub-draw values 0 (R167 to R179). -/
theorem drawResult_zero (i : Instr) (c : Config) (larg : Word) : drawResult i c larg 0 0 = 0 := by
  cases i with
  | nextByte | nextShort | nextInt => simp [drawResult, signedOf_zero]
  | nextLong => exact longOf_zero _
  | nextShortLim | nextIntLim => simp [drawResult, signedOf_zero, boundedOf_zero]
  | nextLongLim => simp [drawResult, longOf_zero, signedOf_zero, boundedOf_zero]
  | nextFloat => simp [drawResult, f32bits]
  | nextDouble => simp [drawResult, f64bits]
  | seedLoad | seedTime | drawBits | nextBool => rfl

/-- In IDLE only SEED, the queue and the stack count. -/
theorem Degenerate.of_idle {s : State} (hp : s.phase = .idle) (hseed : s.seed = 0) (hqueue : ∀ b ∈ s.queue, b = false)
    (hstack : ∀ b ∈ s.stack, b = false) : Degenerate s where
  seed := hseed
  queue := hqueue
  stack := hstack
  value := fun he => by rw [hp] at he; cases he
  d0 := fun hn => absurd hp hn
  d1 := fun hn => absurd hp hn

namespace Degenerate

variable {s : State} (h : Degenerate s)
include h

theorem withInputs (rest : List Input) : Degenerate (s.withInputs rest) := { h with }

theorem fail (code : ErrCode) : Degenerate (s.fail code) := .of_idle rfl h.seed h.queue nofun

theorem finish (result : Word) : Degenerate (s.finish result) := .of_idle rfl h.seed h.queue h.stack

/-- A micro-step before FINISH, TAKE aside: it writes only the phase, the expander and the queue. -/
theorem microStep (hbusy : s.phase ≠ .idle) (hfin : s.phase ≠ .finish) {p : Phase} {seed : Word} {queue stack : List Bool}
    {v : Nat} {podd : Bool} (hp : p ≠ .finish) (hseed : seed = 0) (hqueue : ∀ b ∈ queue, b = false)
    (hstack : ∀ b ∈ stack, b = false) (hv : p = .expand → v = 0) :
    Degenerate { s with phase := p, seed := seed, queue := queue, stack := stack, v := v, podd := podd } := by
  have hdone : subDrawsDone { s with phase := p, seed := seed, queue := queue, stack := stack, v := v, podd := podd } =
      subDrawsDone s := by simp [subDrawsDone, hp, hfin]
  exact
    { seed := hseed, queue := hqueue, stack := hstack, value := hv
      d0 := fun _ hn => h.d0 hbusy (by rwa [hdone] at hn)
      d1 := fun _ hn => h.d1 hbusy (by rwa [hdone] at hn) }

/-- REFILL (R141): 0 advances to 0, which the expansion starts from. -/
theorem refill (hp : s.phase = .refill) (w : Nat) : Degenerate (s.refill w) := by
  have hbusy : s.phase ≠ .idle := by rw [hp]; decide
  have hfin : s.phase ≠ .finish := by rw [hp]; decide
  have hadvance : advanceSeed s.seed = 0 := by rw [h.seed, advanceSeed_zero]
  obtain ⟨-, he⟩ | ⟨-, -, he⟩ | ⟨-, -, he⟩ := refill_cases s w <;> rw [he]
  · exact h.microStep hbusy hfin (by decide) h.seed h.queue h.stack nofun
  · exact h.fail _
  · exact h.microStep hbusy hfin (by decide) hadvance h.queue nofun fun _ => by simp [hadvance]

/-- The element is 0, so it is the last (R125). -/
theorem nextElement (hp : s.phase = .expand) : Degenerate s.nextElement := by
  have hlast : s.nextElement = { s with phase := .emit } := if_pos (by simp [h.value hp])
  rw [hlast]
  exact h.microStep (by rw [hp]; decide) (by rw [hp]; decide) (by decide) h.seed h.queue h.stack nofun

/-- The parity of the element 0 is a zero bit (R125). -/
theorem pushParity (hp : s.phase = .expand) : Degenerate s.pushParity :=
  { h with
    stack := by
      have hbit : parity s.v = false := by rw [h.value hp]; rfl
      simpa [hbit] using h.stack }

theorem expand (hp : s.phase = .expand) : Degenerate s.expand := by
  obtain ⟨-, he⟩ | ⟨-, -, -, he⟩ | ⟨-, -, he⟩ | ⟨-, -, -, he⟩ := expand_cases s <;> rw [he]
  · exact h.fail _
  · exact h.fail _
  · exact h.nextElement hp
  · exact (h.pushParity hp).nextElement hp

theorem emit (hp : s.phase = .emit) : Degenerate s.emit :=
  h.microStep (by rw [hp]; decide) (by rw [hp]; decide) (by decide) h.seed
    (fun b hb => (List.mem_append.mp hb).elim (h.queue b) (h.stack b)) nofun nofun

/-- TAKE (R161): the sub-draw it writes is 0, and the other is 0 if it was written before. -/
theorem takeSubDraw (hp : s.phase = .take) (w : Nat) (more : Bool) : Degenerate (s.takeSubDraw w more) := by
  have hbusy : s.phase ≠ .idle := by rw [hp]; decide
  have hdone : subDrawsDone s = s.sub.val := by simp [subDrawsDone, hp]
  rw [takeSubDraw_eq, subDrawValue_zeros h.queue]
  refine { h with
    queue := fun b hb => h.queue b (List.mem_of_mem_drop hb), value := fun he => ?_, d0 := fun _ _ => ?_
    d1 := fun _ hn => ?_ }
  · cases more <;> cases he
  · dsimp only
    split
    · rfl
    · exact h.d0 hbusy (by omega)
  · dsimp only
    split
    · next h0 => cases more <;> simp [subDrawsDone, h0] at hn
    · rfl

/-- Every micro-step of a draw command keeps the generator degenerate (R40). -/
theorem of_drawStep {i : Instr} {f : Word → Word → Word} {t : State} (hstep : DrawStep i f s t) (hbusy : s.phase ≠ .idle) :
    Degenerate t := by
  cases hstep with
  | accept hp => exact absurd hp hbusy
  | refill w hp _ => exact h.refill hp w
  | expand hp => exact h.expand hp
  | emit hp => exact h.emit hp
  | take w hp _ _ => exact h.takeSubDraw hp w _
  | finish _ => exact h.finish _

/-- RESULT at FINISH (R166): the sub-draw registers the command has written are 0, and it reads no other. -/
theorem drawResult_eq_zero {i : Instr} (hr : Running i s) (hp : s.phase = .finish) :
    drawResult i s.cfg s.larg s.d0 s.d1 = 0 := by
  have hbusy : s.phase ≠ .idle := by rw [hp]; decide
  have hdone : subDrawsDone s = (subDrawWidths i).length := (if_pos hp).trans (hr.lastSubDraw hp)
  obtain ⟨hone, htwo⟩ := subDrawWidths_length (runningCommand_isDraw hr.command)
  rw [h.d0 hbusy (by omega)]
  obtain hsingle | hdouble : (subDrawWidths i).length = 1 ∨ (subDrawWidths i).length = 2 := by omega
  · rw [drawResult_single hsingle _ _ _ _ 0, drawResult_zero]
  · rw [h.d1 hbusy (by omega), drawResult_zero]

end Degenerate

/-- Settles O46: the step is the engine's turn, which changes nothing in IDLE, is a micro-step by `Degenerate.of_drawStep` and writes
RESULT by `Degenerate.drawResult_eq_zero`. -/
theorem degenerateSeedDrawsOnlyZero : Obligations.DegenerateSeedDrawsOnlyZero := by
  intro s t hinv h hin hstep
  obtain ⟨rest, he⟩ := step_engine hinv.legal hin
  have hrest := h.withInputs rest
  obtain ⟨hidle, rfl⟩ | ⟨hbusy, i, hcmd, -, hdraw⟩ := engineTurn_inv (he ▸ hstep)
  · exact ⟨hrest, fun hp => absurd (hidle.symm.trans hp) (by decide)⟩
  · refine ⟨hrest.of_drawStep hdraw hbusy, fun hp => ?_⟩
    obtain ⟨j, hr⟩ := (hinv.withInputs rest).running hbusy
    obtain rfl := hr.unique hcmd
    rw [hdraw.of_finish hp]
    exact hrest.drawResult_eq_zero hr hp

end Sys2Proof.Machine
end

section
/-! The expansion function (41_sequence_expander.md section 1): the trimming pass in the form of R123, and the consequences R128
and R130 of that form. -/

namespace Sys2Proof.Machine

/-! ### Hailstone lists -/

/-- `l` is the hailstone list from `v` on N-bit values (R121): `hail` without its fuel. -/
inductive HailList (n : Nat) : Nat → List Nat → Prop where
  | last {v : Nat} (hv : v ≤ 1) : HailList n v [v]
  | next {v : Nat} {l : List Nat} (hv : 1 < v) (hl : HailList n (hailstone n v) l) : HailList n v (v :: l)

theorem hailList_of_hail {n fuel v : Nat} {l : List Nat} (h : hail n fuel v = some l) : HailList n v l := by
  induction fuel generalizing v l with
  | zero => simp [hail] at h
  | succ f ih =>
    obtain ⟨f', hf, ⟨hv, rfl⟩ | ⟨hv, l', hl', rfl⟩⟩ := hail_cases h
    · exact .last hv
    · obtain rfl : f = f' := by omega
      exact .next hv (ih hl')

theorem HailList.eq_cons {n v : Nat} {l : List Nat} (h : HailList n v l) : ∃ l', l = v :: l' := by
  cases h <;> exact ⟨_, rfl⟩

/-- What R123 needs of neighbours in a hailstone list: an odd element is followed by an even one. -/
def EvenAfterOdd (a b : Nat) : Prop := a % 2 = 1 → b % 2 = 0

theorem HailList.isChain {n v : Nat} {l : List Nat} (hn : 1 ≤ n) (h : HailList n v l) : l.IsChain EvenAfterOdd := by
  induction h with
  | last _ => exact .singleton _
  | next _ hl ih =>
    obtain ⟨l', rfl⟩ := hl.eq_cons
    exact List.isChain_cons_cons.mpr ⟨hailstone_odd hn, ih⟩

/-! ### The trimming pass -/

/-- R123's argument: the nearest even element after an odd anchor is the next one, so the scan goes on behind it as behind an even
element. -/
theorem trimScan_eq_retained {fuel : Nat} {l : List Nat} (hl : l.IsChain EvenAfterOdd) (hfuel : l.length ≤ fuel) :
    trimScan fuel l = retained false l := by
  induction fuel generalizing l with
  | zero =>
    obtain rfl := List.eq_nil_of_length_eq_zero (Nat.le_zero.mp hfuel)
    rfl
  | succ fuel ih =>
    match l with
    | [] => rfl
    | [v] => simp [trimScan, removeFirstEven, retained, ih .nil]
    | v :: w :: l =>
      obtain ⟨hvw, hrest⟩ := List.isChain_cons_cons.mp hl
      simp only [List.length_cons] at hfuel
      by_cases hodd : v % 2 = 1
      · have hw : w % 2 = 0 := hvw hodd
        have hscan := ih hrest.of_cons (by omega)
        simp [trimScan, removeFirstEven, retained, parity, hodd, hw, hscan]
      · have hscan := ih hrest (by simp only [List.length_cons]; omega)
        simp [trimScan, retained, parity, hodd, hscan]

theorem HailList.trim_eq {n v : Nat} {l : List Nat} (hn : 1 ≤ n) (h : HailList n v l) : trim l = retained false l :=
  trimScan_eq_retained (h.isChain hn) le_rfl

/-- Settles O47: hailstone lists have an even element after each odd one, and on such lists the scan is R123's. -/
theorem trimmingRemovesTheSuccessorsOfOddElements : Obligations.TrimmingRemovesTheSuccessorsOfOddElements :=
  fun _ _ _ _ hn h => (hailList_of_hail h).trim_eq hn

/-! ### The expansion -/

/-- `expand` (R124) with the trimming pass in R123's form. -/
theorem expandBits_of_hail {n fuel s : Nat} {l : List Nat} (hn : 1 ≤ n) (h : hail n fuel (s % 2 ^ n) = some l) :
    expandBits n fuel s = some ((retained false l).reverse.map parity) := by
  rw [expandBits, h, Option.map_some, (hailList_of_hail h).trim_eq hn]

/-- What is retained behind an element depends on its parity only (R130). -/
theorem retained_append_cons (podd : Bool) (pre : List Nat) (x : Nat) (shared : List Nat) :
    ∃ kept, retained podd (pre ++ x :: shared) = kept ++ retained (parity x) shared := by
  induction pre generalizing podd with
  | nil =>
    cases podd with
    | false => exact ⟨[x], rfl⟩
    | true => exact ⟨[], rfl⟩
  | cons v pre ih =>
    obtain ⟨kept, hkept⟩ := ih (parity v)
    cases podd with
    | false => exact ⟨v :: kept, congrArg (v :: ·) hkept⟩
    | true => exact ⟨kept, hkept⟩

/-- Reverse emission puts the bits of a list's tail first (R124, R130). -/
theorem expandBits_append_cons {n fuel s x : Nat} {pre shared : List Nat} (hn : 1 ≤ n)
    (h : hail n fuel (s % 2 ^ n) = some (pre ++ x :: shared)) :
    ∃ r, expandBits n fuel s = some ((retained (parity x) shared).reverse.map parity ++ r) := by
  obtain ⟨kept, hkept⟩ := retained_append_cons false pre x shared
  exact ⟨kept.reverse.map parity, by rw [expandBits_of_hail hn h, hkept, List.reverse_append, List.map_append]⟩

/-- Settles O53: `expandBits_append_cons` for each of the two lists. -/
theorem mergingListsShareTheirFirstBits : Obligations.MergingListsShareTheirFirstBits := by
  intro n fuel s1 s2 x pre1 pre2 shared hn h1 h2
  obtain ⟨r1, hr1⟩ := expandBits_append_cons hn h1
  obtain ⟨r2, hr2⟩ := expandBits_append_cons hn h2
  exact ⟨r1, r2, hr1, hr2⟩

/-! ### Corner cases (R128) -/

/-- The list of a power of two halves down to 1: every element but the last is even, so all are retained. -/
theorem hail_two_pow (n : Nat) {k fuel : Nat} (hfuel : k < fuel) :
    ∃ l, hail n fuel (2 ^ k) = some l ∧ (retained false l).reverse.map parity = true :: List.replicate k false := by
  induction k generalizing fuel with
  | zero =>
    obtain ⟨f, rfl⟩ := Nat.exists_eq_add_one.mpr hfuel
    exact ⟨[1], by simp [hail], rfl⟩
  | succ k ih =>
    obtain ⟨f, rfl⟩ := Nat.exists_eq_add_one.mpr (Nat.zero_lt_of_lt hfuel)
    obtain ⟨l, hl, hbits⟩ := ih (fuel := f) (by omega)
    have hlarge : ¬ 2 ^ (k + 1) ≤ 1 := by have := Nat.one_le_two_pow (n := k); omega
    have heven : 2 ^ (k + 1) % 2 = 0 := by omega
    have hhalf : hailstone n (2 ^ (k + 1)) = 2 ^ k := by rw [hailstone, if_pos heven]; omega
    refine ⟨2 ^ (k + 1) :: l, by simp [hail, hlarge, hhalf, hl], ?_⟩
    have hparity : parity (2 ^ (k + 1)) = false := by simp [parity, heven]
    simp [retained, hparity, hbits, List.replicate_succ']

theorem hail_zero (n : Nat) {fuel : Nat} (hfuel : 0 < fuel) : hail n fuel 0 = some [0] := by
  obtain ⟨f, rfl⟩ := Nat.exists_eq_add_one.mpr hfuel
  rfl

/-- Settles O54: a power of two below 2^N keeps its value in N bits, and `hail_two_pow` gives its bits. -/
theorem powersOfTwoExpandToAOneAndZeros : Obligations.PowersOfTwoExpandToAOneAndZeros := by
  refine ⟨fun n k fuel hk hfuel => ?_, fun n fuel hfuel => ?_⟩
  · have hstart : 2 ^ k % 2 ^ n = 2 ^ k := Nat.mod_eq_of_lt (Nat.pow_lt_pow_right (by norm_num) hk)
    obtain ⟨l, hl, hbits⟩ := hail_two_pow n hfuel
    rw [expandBits_of_hail (by omega) (hstart.symm ▸ hl), hbits]
  · rw [expandBits, Nat.zero_mod, hail_zero n hfuel]
    rfl

end Sys2Proof.Machine
end

section
/-! The micro-steps of an expansion (R125, R126): one EXPAND step per element of the hailstone list, the whole walk, and its bound
(R127). -/

namespace Sys2Proof.Machine

/-! ### The micro-step of a phase -/

section
variable {i : Instr} {f : Word → Word → Word} {s : State}

theorem drawStep_refill {w : Nat} (hp : s.phase = .refill) (hw : subDrawWidth i s.sub = some w) :
    drawStep i f s = .next (s.refill w) := by
  simp only [drawStep, hp, refillStep, hw]

theorem drawStep_expand (hp : s.phase = .expand) : drawStep i f s = .next s.expand := by
  simp only [drawStep, hp]

theorem drawStep_emit (hp : s.phase = .emit) : drawStep i f s = .next s.emit := by
  simp only [drawStep, hp]

end

/-- Settles O17: the micro-step of EMIT is `State.emit`. -/
theorem emitAppendsTheWholeExpansion : Obligations.EmitAppendsTheWholeExpansion := by
  intro i s hd hp
  rw [exec_draw hd, drawStep_emit hp]
  rfl

/-! ### One element -/

/-- The stack once the current element is visited: its parity is pushed if it is retained (R125). -/
def State.pushed (s : State) : List Bool := if s.podd then s.stack else parity s.v :: s.stack

/-- The state that visits the next element of the hailstone list (R121, R125). -/
def State.advanced (s : State) : State :=
  { s with stack := s.pushed, v := hailstone s.cfg.aluWidth s.v, podd := parity s.v }

/-- The element is retained and finds the stack full (R125). -/
def State.overflows (s : State) : Prop := s.podd = false ∧ s.stack.length = s.cfg.expDepth

section
variable {s : State}

theorem expand_of_abt (habt : s.abt = true) : s.expand = s.fail .fatalGeneration := if_pos habt

theorem expand_of_overflows (habt : s.abt = false) (h : s.overflows) : s.expand = s.fail .expandOverflow := by
  obtain ⟨hpodd, hfull⟩ := h
  simp [State.expand, habt, hpodd, hfull]

/-- Without abort and overflow, EXPAND is the push and then the comparator and the next element. -/
theorem expand_of_room (habt : s.abt = false) (hroom : ¬ s.overflows) :
    s.expand = { s with stack := s.pushed }.nextElement := by
  obtain ⟨h, -⟩ | ⟨-, hpodd, hfull, -⟩ | ⟨-, hpodd, he⟩ | ⟨-, hpodd, -, he⟩ := expand_cases s
  · simp [habt] at h
  · exact absurd ⟨hpodd, hfull⟩ hroom
  · rw [he, State.pushed, if_pos hpodd]
  · rw [he, State.pushed, if_neg (by simp [hpodd])]
    rfl

/-- The last element of the list ends the expansion. -/
theorem expand_last (habt : s.abt = false) (hroom : ¬ s.overflows) (hv : s.v ≤ 1) :
    s.expand = { s with stack := s.pushed, phase := .emit } := by
  rw [expand_of_room habt hroom]
  exact if_pos hv

/-- The shift-divide and the multiply-add are the hailstone transform (R14, R125), and PODD is the parity of the element left. -/
theorem nextElement_of_one_lt (hv : 1 < s.v) :
    s.nextElement = { s with v := hailstone s.cfg.aluWidth s.v, podd := parity s.v } := by
  obtain ⟨hle, -⟩ | ⟨-, heven, he⟩ | ⟨-, hodd, he⟩ := nextElement_cases s
  · omega
  · simp [he, hailstone, parity, heven]
  · simp [he, hailstone, parity, hodd]

theorem expand_next (habt : s.abt = false) (hroom : ¬ s.overflows) (hv : 1 < s.v) : s.expand = s.advanced := by
  rw [expand_of_room habt hroom]
  exact nextElement_of_one_lt (s := { s with stack := s.pushed }) hv

end

/-- Settles O16: abort, overflow, last element and next element, each by its lemma. -/
theorem expandVisitsOneElement : Obligations.ExpandVisitsOneElement := by
  intro i s hd hp
  rw [exec_draw hd, drawStep_expand hp]
  congr 1
  split
  · next habt => exact expand_of_abt habt
  · next habt =>
    rw [Bool.not_eq_true] at habt
    split
    · next hfull => exact expand_of_overflows habt hfull
    · next hroom =>
      by_cases hv : s.v ≤ 1
      · rw [expand_last habt hroom hv]
        exact (if_pos hv).symm
      · rw [expand_next habt hroom (by omega)]
        refine Eq.trans ?_ (if_neg hv).symm
        rw [State.advanced, hailstone, parity]
        split
        · next heven => simp [heven, State.pushed, parity]
        · next hodd => simp [show s.v % 2 = 1 by omega, State.pushed, parity]

end Sys2Proof.Machine
end

section
/-! The whole walk of an expansion (R125 to R127): the micro-steps compute `expand`, overflow when its bits do not fit the stack,
and end within R127's bound whatever the start value is. -/

namespace Sys2Proof.Machine

/-! ### The stack along the hailstone list -/

/-- The stack once the elements `l` of the hailstone list from V on are visited (R123 to R125). -/
def State.stackAfter (s : State) (l : List Nat) : List Bool := (retained s.podd l).reverse.map parity ++ s.stack

/-- The micro-steps of an expansion without abort and without input: each is `State.expand`. -/
structure Expanding (i : Instr) (s : State) : Prop where
  legal : s.cfg.Legal
  noInputs : s.inputs = []
  command : s.runningCommand = some i
  phase : s.phase = .expand
  noAbort : s.abt = false

section
variable {i : Instr} {s : State} {l : List Nat}

theorem State.stackAfter_cons (s : State) (l : List Nat) : s.stackAfter (s.v :: l) = s.advanced.stackAfter l := by
  cases hpodd : s.podd <;> simp [State.stackAfter, State.advanced, State.pushed, retained, hpodd]

theorem State.stackAfter_last (s : State) : s.stackAfter [s.v] = s.pushed := s.stackAfter_cons []

theorem State.stack_length_le_stackAfter (s : State) (l : List Nat) : s.stack.length ≤ (s.stackAfter l).length := by
  simp [State.stackAfter]

/-- The element overflows a stack within its capacity exactly when the push would exceed it. -/
theorem overflows_iff (hstack : s.stack.length ≤ s.cfg.expDepth) : s.overflows ↔ s.cfg.expDepth < s.pushed.length := by
  cases hpodd : s.podd with
  | true => simp [State.overflows, State.pushed, hpodd, hstack]
  | false =>
    simp only [State.overflows, State.pushed, hpodd, Bool.false_eq_true, if_false, List.length_cons, true_and]
    omega

theorem Expanding.step_eq (h : Expanding i s) : step s = .next s.expand := by
  rw [step_running h.legal h.noInputs (by rw [h.phase]; decide) h.command, drawStep_expand h.phase]

theorem Expanding.advanced (h : Expanding i s) : Expanding i s.advanced := { h with }

theorem Expanding.step_last (h : Expanding i s) (hroom : ¬ s.overflows) (hv : s.v ≤ 1) :
    step s = .next { s with stack := s.pushed, phase := .emit } := by
  rw [h.step_eq, expand_last h.noAbort hroom hv]

theorem Expanding.step_next (h : Expanding i s) (hroom : ¬ s.overflows) (hv : 1 < s.v) : step s = .next s.advanced := by
  rw [h.step_eq, expand_next h.noAbort hroom hv]

theorem step_emit (hlegal : s.cfg.Legal) (hin : s.inputs = []) (hcmd : s.runningCommand = some i) (hp : s.phase = .emit) :
    step s = .next s.emit := by
  rw [step_running hlegal hin (by rw [hp]; decide) hcmd, drawStep_emit hp]

theorem runSteps_one {t : State} (h : step s = .next t) : runSteps 1 s = .next t := runSteps_succ h

/-- One EXPAND step per element leads to EMIT with the retained parities on the stack, if they fit it. -/
theorem Expanding.run_of_fits (h : Expanding i s) (hl : HailList s.cfg.aluWidth s.v l)
    (hfits : (s.stackAfter l).length ≤ s.cfg.expDepth) :
    ∃ v podd, runSteps l.length s = .next { s with stack := s.stackAfter l, v := v, podd := podd, phase := .emit } := by
  generalize hn : s.cfg.aluWidth = n at hl
  generalize hv : s.v = v at hl
  induction hl generalizing s with
  | last hle =>
    subst hv
    have hstack := le_trans (s.stack_length_le_stackAfter _) hfits
    rw [State.stackAfter_last] at hfits
    have hroom : ¬ s.overflows := by rw [overflows_iff hstack]; omega
    rw [State.stackAfter_last]
    exact ⟨_, _, runSteps_one (h.step_last hroom hle)⟩
  | @next _ l hlt _ ih =>
    subst hv
    have hstack := le_trans (s.stack_length_le_stackAfter _) hfits
    rw [State.stackAfter_cons] at hfits
    have hpushed : s.pushed.length ≤ s.cfg.expDepth := le_trans (s.advanced.stack_length_le_stackAfter l) hfits
    have hroom : ¬ s.overflows := by rw [overflows_iff hstack]; omega
    obtain ⟨v, podd, hrun⟩ := ih h.advanced hfits hn (by rw [← hn]; rfl)
    exact ⟨v, podd, by rw [List.length_cons, runSteps_succ (h.step_next hroom hlt), hrun, State.stackAfter_cons]; rfl⟩

/-- EMIT then appends them to the queue (R126). -/
theorem Expanding.run_through_emit (h : Expanding i s) (hl : HailList s.cfg.aluWidth s.v l)
    (hfits : (s.stackAfter l).length ≤ s.cfg.expDepth) :
    ∃ v podd, runSteps (l.length + 1) s =
      .next { s with queue := s.queue ++ s.stackAfter l, stack := [], v := v, podd := podd, phase := .refill } := by
  obtain ⟨v, podd, hrun⟩ := h.run_of_fits hl hfits
  refine ⟨v, podd, ?_⟩
  rw [runSteps_add hrun]
  exact runSteps_one (step_emit h.legal h.noInputs h.command rfl)

/-- If they do not fit it, the push that finds the stack full ends the command. -/
theorem Expanding.run_of_overflow (h : Expanding i s) (hl : HailList s.cfg.aluWidth s.v l)
    (hstack : s.stack.length ≤ s.cfg.expDepth) (hlong : s.cfg.expDepth < (s.stackAfter l).length) :
    ∃ k v podd, k ≤ l.length ∧ runSteps k s = .next ({ s with v := v, podd := podd }.fail .expandOverflow) := by
  generalize hn : s.cfg.aluWidth = n at hl
  generalize hv : s.v = v at hl
  induction hl generalizing s with
  | last hle =>
    subst hv
    rw [State.stackAfter_last, ← overflows_iff hstack] at hlong
    exact ⟨1, s.v, s.podd, le_rfl, runSteps_one (by rw [h.step_eq, expand_of_overflows h.noAbort hlong])⟩
  | @next _ l hlt _ ih =>
    subst hv
    by_cases hover : s.overflows
    · exact ⟨1, s.v, s.podd, by simp, runSteps_one (by rw [h.step_eq, expand_of_overflows h.noAbort hover])⟩
    · have hpushed : s.pushed.length ≤ s.cfg.expDepth := by rw [overflows_iff hstack] at hover; omega
      rw [State.stackAfter_cons] at hlong
      obtain ⟨k, v, podd, hk, hrun⟩ := ih h.advanced hpushed hlong hn (by rw [← hn]; rfl)
      exact ⟨k + 1, v, podd, by simpa using hk, by rw [runSteps_succ (h.step_next hover hlt), hrun]; rfl⟩

end

/-! ### From REFILL to REFILL -/

section
variable {i : Instr} {s : State} {w fuel : Nat} {l : List Nat}

/-- A REFILL that needs bits, without abort and without input, advances the seed and starts its expansion (R141, R142). -/
theorem expanding_of_refill (hlegal : s.cfg.Legal) (hin : s.inputs = []) (hcmd : s.runningCommand = some i)
    (hp : s.phase = .refill) (hw : subDrawWidth i s.sub = some w) (hqueue : s.queue.length < 48 + w)
    (habt : s.abt = false) : step s = .next s.startExpansion ∧ Expanding i s.startExpansion := by
  have hrefill : s.refill w = s.startExpansion := by
    obtain ⟨h, -⟩ | ⟨-, h, -⟩ | ⟨-, -, he⟩ := refill_cases s w
    · omega
    · simp [habt] at h
    · exact he
  refine ⟨?_, ⟨hlegal, hin, hcmd, rfl, habt⟩⟩
  rw [step_running hlegal hin (by rw [hp]; decide) hcmd, drawStep_refill hp hw, hrefill]

/-- The stack at the end of an expansion holds `expand` of the advanced seed, top first (R123, R124, R142). -/
theorem startExpansion_stackAfter (s : State) (l : List Nat) :
    s.startExpansion.stackAfter l = (retained false l).reverse.map parity :=
  List.append_nil _

end

/-- Settles O48: REFILL starts the walk of `Expanding.run_through_emit`, which appends `expand` in R123's form. -/
theorem microStepsComputeTheExpansion : Obligations.MicroStepsComputeTheExpansion := by
  intro s i w fuel l hlegal hin hcmd hp hw hqueue habt hhail hfits
  have hn : 1 ≤ s.cfg.aluWidth := le_trans (by norm_num) hlegal.1
  have hlist := hailList_of_hail hhail
  rw [hlist.trim_eq hn] at hfits
  obtain ⟨hrefill, hexp⟩ := expanding_of_refill hlegal hin hcmd hp hw hqueue habt
  have hstack := startExpansion_stackAfter s l
  obtain ⟨v, podd, hrun⟩ := hexp.run_through_emit hlist (by simpa [hstack] using hfits)
  rw [hstack] at hrun
  refine ⟨_, _, expandBits_of_hail hn hhail, ?_, (runSteps_succ hrefill).trans hrun, rfl⟩
  obtain ⟨l', rfl⟩ := hlist.eq_cons
  simp [retained]

/-- Settles O49: REFILL starts the walk of `Expanding.run_of_overflow`. -/
theorem tooLongAnExpansionOverflows : Obligations.TooLongAnExpansionOverflows := by
  intro s i w fuel l hlegal hin hcmd hp hw hqueue habt hhail hlong
  have hn : 1 ≤ s.cfg.aluWidth := le_trans (by norm_num) hlegal.1
  have hlist := hailList_of_hail hhail
  rw [hlist.trim_eq hn] at hlong
  obtain ⟨hrefill, hexp⟩ := expanding_of_refill hlegal hin hcmd hp hw hqueue habt
  have hstack := startExpansion_stackAfter s l
  obtain ⟨k, v, podd, hk, hrun⟩ := hexp.run_of_overflow hlist (Nat.zero_le _) (by simpa [hstack] using hlong)
  exact ⟨k + 1, _, by omega, (runSteps_succ hrefill).trans hrun, rfl⟩

/-! ### The bound of R127 -/

/-- The EXPAND steps an expansion can still take (R127): a step without a push is followed by one that pushes. -/
def State.expandStepsLeft (s : State) : Nat := 2 * (s.cfg.expDepth - s.stack.length) + 1 + s.podd.toNat

/-- How an expansion ends (R125): in EMIT with 1 to `depth` bits, or with a failed command. -/
def ExpansionEnded (depth : Nat) (t : State) : Prop :=
  (t.phase = .emit ∧ 1 ≤ t.stack.length ∧ t.stack.length ≤ depth) ∨
    (t.phase = .idle ∧ t.fatal = true ∧ (t.err = .expandOverflow ∨ t.err = .fatalGeneration))

section
variable {s : State}

/-- Visiting the next element uses up a step: a retained element takes a place of the stack, and the follower of an odd element is
even, so that the one after it is retained. -/
theorem Inv.expandStepsLeft_advanced (h : Inv s) (hp : s.phase = .expand) (hroom : ¬ s.overflows) :
    s.advanced.expandStepsLeft < s.expandStepsLeft := by
  have hfits := h.stackFits
  cases hpodd : s.podd with
  | true =>
    have hparity : parity s.v = false := by simp [parity, h.oddFollower hp hpodd]
    simp [State.expandStepsLeft, State.advanced, State.pushed, hpodd, hparity]
  | false =>
    have hfull : s.stack.length ≠ s.cfg.expDepth := fun he => hroom ⟨hpodd, he⟩
    have hbit := Bool.toNat_le (parity s.v)
    simp only [State.expandStepsLeft, State.advanced, State.pushed, hpodd, Bool.false_eq_true, if_false, List.length_cons,
      Bool.toNat_false]
    omega

/-- One EXPAND step ends the expansion or uses up a step (R127). -/
theorem Inv.expand_ends_or_descends (h : Inv s) (hp : s.phase = .expand) (hinv : Inv s.expand) :
    ExpansionEnded s.cfg.expDepth s.expand ∨
      (s.expand.phase = .expand ∧ s.expand.inputs = s.inputs ∧ s.expand.expandStepsLeft < s.expandStepsLeft) := by
  cases habt : s.abt with
  | true =>
    rw [expand_of_abt habt]
    exact .inl (.inr ⟨rfl, rfl, .inr rfl⟩)
  | false =>
    by_cases hover : s.overflows
    · rw [expand_of_overflows habt hover]
      exact .inl (.inr ⟨rfl, rfl, .inl rfl⟩)
    · by_cases hv : s.v ≤ 1
      · rw [expand_last habt hover hv] at hinv ⊢
        exact .inl (.inl ⟨rfl, List.length_pos_iff.mpr (hinv.emitNonempty rfl), hinv.stackFits⟩)
      · rw [expand_next habt hover (by omega)]
        exact .inr ⟨hp, rfl, h.expandStepsLeft_advanced hp hover⟩

/-- The walk ends within the steps left. -/
theorem Inv.expansion_ends (h : Inv s) (hin : s.inputs = []) (hp : s.phase = .expand) {b : Nat} (hb : s.expandStepsLeft ≤ b) :
    ∃ k t, 1 ≤ k ∧ k ≤ b ∧ runSteps k s = .next t ∧ ExpansionEnded s.cfg.expDepth t := by
  induction b generalizing s with
  | zero => simp [State.expandStepsLeft] at hb
  | succ b ih =>
    have hbusy : s.phase ≠ .idle := by rw [hp]; decide
    obtain ⟨i, hr⟩ := h.running hbusy
    have hstep : step s = .next s.expand := by rw [step_running h.legal hin hbusy hr.command, drawStep_expand hp]
    have hinv := everyStepKeepsTheInvariant s _ h hstep
    obtain hend | ⟨hp', hin', hless⟩ := h.expand_ends_or_descends hp hinv
    · exact ⟨1, _, le_rfl, by omega, runSteps_one hstep, hend⟩
    · obtain ⟨k, t, -, hkb, hrun, hend⟩ := ih hinv (hin'.trans hin) hp' (by omega)
      rw [State.expand_cfg] at hend
      exact ⟨k + 1, t, by omega, by omega, (runSteps_succ hstep).trans hrun, hend⟩

end

/-- Settles O50: at the start of an expansion the steps left are R127's bound. -/
theorem expansionEndsWithinItsBound : Obligations.ExpansionEndsWithinItsBound := by
  intro s h hin hp hpodd hstack
  exact h.expansion_ends hin hp (by simp [State.expandStepsLeft, hpodd, hstack])

end Sys2Proof.Machine
end

section
/-! The bit queue (42_bit_queue.md): the micro-steps that test it and pop it (R141, R144), its writers (R140), and that a machine
in its invariant always has a next state (R144, R147). -/

namespace Sys2Proof.Machine

/-! ### The micro-step of a phase -/

section
variable {i : Instr} {f : Word → Word → Word} {s : State} {w : Nat}

theorem drawStep_idle (hp : s.phase = .idle) : drawStep i f s = .next (acceptDraw i s) := by
  simp only [drawStep, hp]

theorem drawStep_take (hp : s.phase = .take) (hw : subDrawWidth i s.sub = some w) (hqueue : 48 ≤ s.queue.length) :
    drawStep i f s = .next (s.takeSubDraw w (hasSubDrawAfter i s.sub)) := by
  simp only [drawStep, hp, takeStep, hw, if_neg (Nat.not_lt.mpr hqueue)]

theorem drawStep_take_underflow (hp : s.phase = .take) (hw : subDrawWidth i s.sub = some w)
    (hqueue : s.queue.length < 48) : drawStep i f s = .fault .queueUnderflow := by
  simp only [drawStep, hp, takeStep, hw, if_pos hqueue]

theorem drawStep_finish (hp : s.phase = .finish) : drawStep i f s = .next (s.finish (f s.d0 s.d1)) := by
  simp only [drawStep, hp]

end

/-- Settles O19: the micro-step of TAKE with fewer than 48 bits is the fault. -/
theorem takeWithoutAWindowStops : Obligations.TakeWithoutAWindowStops := by
  intro i s w hd hp hw hqueue
  rw [exec_draw hd, drawStep_take_underflow hp hw hqueue]

/-- Settles O15: the micro-step of REFILL is `State.refill`, whose three cases are the statement's. -/
theorem refillTestsThenAdvances : Obligations.RefillTestsThenAdvances := by
  intro i s w hd hp hw
  rw [exec_draw hd, drawStep_refill hp hw]
  refine congrArg Host.Outcome.next ?_
  obtain ⟨hqueue, he⟩ | ⟨hqueue, habt, he⟩ | ⟨hqueue, habt, he⟩ := refill_cases s w <;> rw [he]
  · rw [if_pos hqueue]
  · rw [if_neg (Nat.not_le.mpr hqueue), if_pos habt]
    rfl
  · rw [if_neg (Nat.not_le.mpr hqueue), if_neg (by simp [habt])]
    rfl

/-! ### The writers of the queue -/

/-- A step of a draw command keeps the queue, or is the append of EMIT or the pops of TAKE (R140). -/
theorem DrawStep.queue_cases {i : Instr} {f : Word → Word → Word} {s t : State} (h : DrawStep i f s t) :
    t.queue = s.queue ∨ (s.phase = .emit ∧ t.queue = s.queue ++ s.stack) ∨
    (s.phase = .take ∧ 48 ≤ s.queue.length ∧ t.queue = s.queue.drop 48) := by
  have hframe := h.frame.queue
  cases h with
  | emit hp => exact .inr (.inl ⟨hp, rfl⟩)
  | take w hp _ hlen => exact .inr (.inr ⟨hp, hlen, by rw [takeSubDraw_eq]⟩)
  | accept hp | refill _ hp _ | expand hp | finish hp => exact .inl (hframe (by simp [hp]) (by simp [hp]))

/-- Settles O39: the queue changes in EMIT and TAKE, in the two constructions and in reset, and in no other case of a step. -/
theorem queueChangesOnlyByEmitTakeAndSeed : Obligations.QueueChangesOnlyByEmitTakeAndSeed := by
  intro s t h hne
  cases step_inv h with
  | engineBusy rest i _ _ _ _ _ hdraw =>
    obtain hkept | hemit | htake := hdraw.queue_cases
    · exact absurd hkept hne
    · exact .inl hemit
    · exact .inr (.inl htake)
  | reset rest hin => exact .inr (.inr (.inr ⟨rfl, rest, hin⟩))
  | seedLoad c rest hin hp hdec => exact .inr (.inr (.inl ⟨rfl, hp, c, rest, hin, .inl (seedLoad_word hdec)⟩))
  | seedTime c rest hin hp hdec => exact .inr (.inr (.inl ⟨rfl, hp, c, rest, hin, .inr (seedTime_word hdec)⟩))
  | write k data rest =>
    obtain ⟨_, _, _, he⟩ := writeReg_touches (s.withInputs rest) (regAt k) data
    exact absurd (by rw [he]; rfl) hne
  | draw c i rest =>
    obtain ⟨_, _, _, _, _, _, _, he⟩ := acceptDraw_touches i ((s.withInputs rest).respond .written)
    exact absurd (by rw [he]; rfl) hne
  | engineIdle | busError | read | overrun | illegal => simp at hne

/-! ### Progress -/

/-- A running command never gets stuck: its sub-draw has a width (R38), and TAKE finds its window (R144). -/
theorem Running.drawStep_next {i : Instr} {s : State} (h : Running i s) (f : Word → Word → Word) :
    ∃ t, drawStep i f s = .next t := by
  obtain ⟨w, hw, -⟩ := h.width
  cases hp : s.phase with
  | idle => exact ⟨_, drawStep_idle hp⟩
  | refill => exact ⟨_, drawStep_refill hp hw⟩
  | expand => exact ⟨_, drawStep_expand hp⟩
  | emit => exact ⟨_, drawStep_emit hp⟩
  | take =>
    have hwindow := h.windowReady hp w hw
    exact ⟨_, drawStep_take hp hw (by omega)⟩
  | finish => exact ⟨_, drawStep_finish hp⟩

theorem Inv.engineTurn_next {s : State} (h : Inv s) : ∃ t, engineTurn exec s = .next t := by
  by_cases hp : s.phase = .idle
  · exact ⟨s, engineTurn_idle hp⟩
  · obtain ⟨i, hr⟩ := h.running hp
    rw [engineTurn_busy hp hr.command, exec_draw (runningCommand_isDraw hr.command)]
    exact hr.drawStep_next _

/-- In IDLE every command has a step: its acceptance, or its construction (R44, R104, R105). -/
theorem exec_idle_next {s : State} (hp : s.phase = .idle) (i : Instr) : ∃ t, exec i s = .next t := by
  cases i with
  | seedLoad => exact ⟨_, exec_seedLoad_idle hp⟩
  | seedTime => exact ⟨_, exec_seedTime_idle hp⟩
  | _ => exact ⟨_, exec_draw_idle rfl hp⟩

/-- A CMD write is dropped, rejected or run, and each is a next state (R44, R45). -/
theorem commandWrite_next (c : Word) (s : State) : ∃ t, commandWrite exec c s = .next t := by
  by_cases hp : s.phase = .idle
  · cases hdec : decode c with
    | ok i => rw [commandWrite_ok hp hdec]; exact exec_idle_next hp i
    | error e => exact ⟨_, commandWrite_error hp hdec⟩
  · exact ⟨_, commandWrite_busy hp⟩

theorem registerAccess_next (r : Reg) (kind : AccessKind) (s : State) : ∃ t, registerAccess exec r kind s = .next t := by
  cases kind with
  | read => exact ⟨_, rfl⟩
  | write data =>
    cases r with
    | cmd => exact commandWrite_next data _
    | _ => exact ⟨_, rfl⟩

/-- The other half of `selectReg_outside` (R60). -/
theorem selectReg_inside {base addr : Nat} (size : Nat) (hlow : base ≤ addr) (hhigh : addr < base + 64) :
    selectReg base addr size ≠ .outside := by
  unfold selectReg
  rw [if_neg (by omega)]
  split <;> nofun

/-- An access inside the window is answered (R62, R63). -/
theorem hostAccess_next {a : Access} {s : State} (hlow : s.cfg.base ≤ a.addr) (hhigh : a.addr < s.cfg.base + 64) :
    ∃ t, hostAccess exec a s = .next t := by
  unfold hostAccess
  cases hsel : selectReg s.cfg.base a.addr a.size with
  | outside => exact absurd hsel (selectReg_inside a.size hlow hhigh)
  | refused => exact ⟨_, rfl⟩
  | reg r => exact registerAccess_next r a.kind s

/-- Settles O36: input by input, from `Inv.engineTurn_next` and `hostAccess_next`; reset always has a next state. -/
theorem invariantStatesNeverStop : Obligations.InvariantStatesNeverStop := by
  intro s h hdecoded
  rw [step_of_legal h.legal]
  match hin : s.inputs with
  | [] => exact h.engineTurn_next
  | .engine :: rest => exact (h.withInputs rest).engineTurn_next
  | .rst :: rest => exact ⟨_, rfl⟩
  | .bus a :: rest =>
    have hwindow := hdecoded _ rest hin
    simp only [Input.decoded, Bool.and_eq_true, decide_eq_true_eq] at hwindow
    exact hostAccess_next (s := s.withInputs rest) hwindow.1 hwindow.2

end Sys2Proof.Machine
end

section
/-! A command that runs alone, without input, completes within its bound (R147, R250, R251). -/

namespace Sys2Proof.Machine

/-! ### A command that runs alone -/

/-- A draw command runs, and the engine has every turn until it completes (R251). -/
structure RunningAlone (i : Instr) (s : State) : Prop where
  inv : Inv s
  noInputs : s.inputs = []
  busy : s.phase ≠ .idle
  running : Running i s

/-- Each step is a micro-step of the command, which then is in IDLE or runs on (R40). -/
theorem RunningAlone.step {i : Instr} {s : State} (h : RunningAlone i s) :
    ∃ t, step s = .next t ∧ DrawStep i (drawResult i s.cfg s.larg) s t ∧ (t.phase ≠ .idle → RunningAlone i t) := by
  have hstep := step_running h.inv.legal h.noInputs h.busy h.running.command
  obtain ⟨t, ht⟩ := h.running.drawStep_next (drawResult i s.cfg s.larg)
  have hdraw := drawStep_inv ht
  have hinv := hdraw.inv h.inv h.running h.busy
  refine ⟨t, hstep.trans ht, hdraw, fun hbusy => ⟨hinv, hdraw.frame.inputs.trans h.noInputs, hbusy, ?_⟩⟩
  obtain ⟨j, hr⟩ := hinv.running hbusy
  have hcmd : t.runningCommand = some i := by
    rw [← h.running.command, State.runningCommand, State.runningCommand, (hdraw.frame.latches h.busy).1]
  exact hr.unique hcmd ▸ hr

/-- Everything an EXPAND step can do: `fail`, the last element of the list, or the next one (R125). -/
theorem expand_walk_cases (s : State) :
    (∃ code, code ≠ .ok ∧ s.expand = s.fail code) ∨
    (s.v ≤ 1 ∧ s.expand = { s with stack := s.pushed, phase := .emit }) ∨
    (1 < s.v ∧ ¬ s.overflows ∧ s.expand = s.advanced) := by
  by_cases habt : s.abt = true
  · exact .inl ⟨_, by decide, expand_of_abt habt⟩
  · rw [Bool.not_eq_true] at habt
    by_cases hover : s.overflows
    · exact .inl ⟨_, by decide, expand_of_overflows habt hover⟩
    · by_cases hv : s.v ≤ 1
      · exact .inr (.inl ⟨hv, expand_last habt hover hv⟩)
      · exact .inr (.inr ⟨by omega, hover, expand_next habt hover (by omega)⟩)

/-- After TAKE the second sub-draw is refilled, or FINISH follows (R161). -/
theorem takeSubDraw_next {i : Instr} (hd : isDraw i = true) (s : State) (w : Nat) :
    ((s.takeSubDraw w (hasSubDrawAfter i s.sub)).phase = .refill ∧ s.sub = 0 ∧
      (s.takeSubDraw w (hasSubDrawAfter i s.sub)).sub = 1) ∨
    ((s.takeSubDraw w (hasSubDrawAfter i s.sub)).phase = .finish ∧
      (s.takeSubDraw w (hasSubDrawAfter i s.sub)).sub = s.sub) := by
  rw [takeSubDraw_eq]
  cases hmore : hasSubDrawAfter i s.sub with
  | true =>
    obtain ⟨-, hlen⟩ := subDrawWidths_length hd
    have hlt := of_decide_eq_true hmore
    exact .inl ⟨rfl, by omega, rfl⟩
  | false => exact .inr ⟨rfl, rfl⟩

/-- A micro-step that ends the command is a `fail`, or FINISH (R46, R205). -/
theorem DrawStep.end_cases {i : Instr} {f : Word → Word → Word} {s t : State} (h : DrawStep i f s t)
    (hs : s.phase ≠ .idle) (ht : t.phase = .idle) :
    (∃ code, code ≠ .ok ∧ t = s.fail code) ∨ (s.phase = .finish ∧ t = s.finish (f s.d0 s.d1)) := by
  cases h with
  | accept hp => exact absurd hp hs
  | refill w hp _ =>
    obtain ⟨-, he⟩ | ⟨-, -, he⟩ | ⟨-, -, he⟩ := refill_cases s w <;> rw [he] at ht ⊢
    · cases ht
    · exact .inl ⟨_, by decide, rfl⟩
    · cases ht
  | expand hp =>
    obtain hfail | ⟨-, he⟩ | ⟨-, -, he⟩ := expand_walk_cases s
    · exact .inl hfail
    · rw [he] at ht; cases ht
    · rw [he] at ht; exact absurd ht hs
  | emit _ => cases ht
  | take w _ _ _ => cases hmore : hasSubDrawAfter i s.sub <;> simp [takeSubDraw_eq, hmore] at ht
  | finish hp => exact .inr ⟨hp, rfl⟩

/-- A command that ends sets DONE. -/
theorem DrawStep.done_of_idle {i : Instr} {f : Word → Word → Word} {s t : State} (h : DrawStep i f s t)
    (hs : s.phase ≠ .idle) (ht : t.phase = .idle) : t.done = true := by
  obtain ⟨_, -, rfl⟩ | ⟨-, rfl⟩ := h.end_cases hs ht <;> rfl

/-! ### The steps left -/

/-- The steps of one expansion and its REFILL (R127, R147). -/
def expansionSteps (c : Config) : Nat := 2 * c.expDepth + 3

/-- The bound of R147 for the sub-draws from `k` on, and FINISH. -/
def boundFrom (i : Instr) (c : Config) (k : Nat) : Nat :=
  (((subDrawWidths i).drop k).map fun w => (48 + w) * expansionSteps c + 2).sum + 1

theorem boundFrom_zero (i : Instr) (c : Config) : boundFrom i c 0 = commandBound i c := rfl

theorem boundFrom_succ {i : Instr} {k w : Nat} (c : Config) (h : (subDrawWidths i)[k]? = some w) :
    boundFrom i c k = (48 + w) * expansionSteps c + 2 + boundFrom i c (k + 1) := by
  obtain ⟨hk, hw⟩ := List.getElem?_eq_some_iff.mp h
  rw [boundFrom, List.drop_eq_getElem_cons hk, hw, List.map_cons, List.sum_cons, Nat.add_assoc]
  rfl

/-- The bits the current sub-draw still needs queued (R141). -/
def bitsMissing (i : Instr) (s : State) : Nat := 48 + (subDrawWidth i s.sub).getD 0 - s.queue.length

theorem bitsMissing_eq {i : Instr} {s : State} {w : Nat} (hw : subDrawWidth i s.sub = some w) :
    bitsMissing i s = 48 + w - s.queue.length := by
  rw [bitsMissing, hw, Option.getD_some]

/-- The steps a running command can still take, if each expansion adds only one bit (R147). -/
def stepsLeft (i : Instr) (s : State) : Nat :=
  match s.phase with
  | .idle => 0
  | .refill => bitsMissing i s * expansionSteps s.cfg + 2 + boundFrom i s.cfg (s.sub + 1)
  | .expand =>
    s.expandStepsLeft + 1 + (bitsMissing i s - 1) * expansionSteps s.cfg + 2 + boundFrom i s.cfg (s.sub + 1)
  | .emit => 1 + (bitsMissing i s - 1) * expansionSteps s.cfg + 2 + boundFrom i s.cfg (s.sub + 1)
  | .take => 1 + boundFrom i s.cfg (s.sub + 1)
  | .finish => 1

section
variable {i : Instr} {s t : State}

theorem stepsLeft_pos (hbusy : s.phase ≠ .idle) : 0 < stepsLeft i s := by
  unfold stepsLeft
  split
  · next hidle => exact absurd hidle hbusy
  all_goals omega

/-- A refill takes at most the bound of its sub-draw and the later ones. -/
theorem stepsLeft_refill_le {w : Nat} (hp : s.phase = .refill) (hw : subDrawWidth i s.sub = some w) :
    stepsLeft i s ≤ boundFrom i s.cfg s.sub := by
  have hbits : bitsMissing i s ≤ 48 + w := by rw [bitsMissing_eq hw]; omega
  have hmul := Nat.mul_le_mul_right (expansionSteps s.cfg) hbits
  rw [boundFrom_succ s.cfg hw]
  simp only [stepsLeft, hp]
  omega

/-- REFILL goes to TAKE, or its advance pays for one expansion (R127, R141). -/
theorem stepsLeft_refill_lt {w : Nat} (hp : s.phase = .refill) (hw : subDrawWidth i s.sub = some w)
    (hbusy : (s.refill w).phase ≠ .idle) : stepsLeft i (s.refill w) < stepsLeft i s := by
  obtain ⟨-, he⟩ | ⟨-, -, he⟩ | ⟨hqueue, -, he⟩ := refill_cases s w <;> rw [he] at hbusy ⊢
  · simp only [stepsLeft, hp]
    omega
  · exact absurd rfl hbusy
  · have hkept : bitsMissing i s.startExpansion = bitsMissing i s := rfl
    obtain ⟨m, hm⟩ : ∃ m, bitsMissing i s = m + 1 :=
      Nat.exists_eq_add_one.mpr (by rw [bitsMissing_eq hw]; omega)
    simp only [stepsLeft, hp, hkept, hm, State.startExpansion_phase, State.startExpansion_cfg, State.startExpansion_sub,
      Nat.add_sub_cancel, Nat.succ_mul, State.expandStepsLeft, State.startExpansion_stack, State.startExpansion_podd]
    simp only [expansionSteps, List.length_nil, Bool.toNat_false]
    omega

/-- EXPAND uses up a step of the expansion, or leaves it for EMIT (R127). -/
theorem stepsLeft_expand_lt (h : Inv s) (hp : s.phase = .expand) (hbusy : s.expand.phase ≠ .idle) :
    stepsLeft i s.expand < stepsLeft i s := by
  obtain ⟨_, -, he⟩ | ⟨-, he⟩ | ⟨-, hroom, he⟩ := expand_walk_cases s <;> rw [he] at hbusy ⊢
  · exact absurd rfl hbusy
  · have hkept : bitsMissing i { s with stack := s.pushed, phase := .emit } = bitsMissing i s := rfl
    simp only [stepsLeft, hp, hkept, State.expandStepsLeft]
    omega
  · have hless := h.expandStepsLeft_advanced hp hroom
    have hkept : bitsMissing i s.advanced = bitsMissing i s := rfl
    simp only [stepsLeft, hp, hkept, show s.advanced.phase = .expand from hp, show s.advanced.cfg = s.cfg from rfl,
      show s.advanced.sub = s.sub from rfl]
    omega

/-- EMIT appends at least one bit (R126, R127). -/
theorem stepsLeft_emit_lt (h : Inv s) (hp : s.phase = .emit) : stepsLeft i s.emit < stepsLeft i s := by
  have hstack := List.length_pos_iff.mpr (h.emitNonempty hp)
  have hbits : bitsMissing i s.emit ≤ bitsMissing i s - 1 := by
    simp only [bitsMissing, State.emit_sub, State.emit_queue, List.length_append]
    omega
  have hmul := Nat.mul_le_mul_right (expansionSteps s.cfg) hbits
  simp only [stepsLeft, hp, State.emit_phase, State.emit_cfg, State.emit_sub]
  omega

/-- TAKE ends its sub-draw (R161). -/
theorem stepsLeft_take_lt {w : Nat} (h : Running i s) (hp : s.phase = .take) (hw : subDrawWidth i s.sub = some w) :
    stepsLeft i (s.takeSubDraw w (hasSubDrawAfter i s.sub)) < stepsLeft i s := by
  obtain ⟨w', hw', -⟩ := (h.takeSubDraw hp hw).width
  have hnext := takeSubDraw_next (runningCommand_isDraw h.command) s w
  have hcfg := s.takeSubDraw_cfg w (hasSubDrawAfter i s.sub)
  generalize s.takeSubDraw w (hasSubDrawAfter i s.sub) = t at hw' hnext hcfg ⊢
  have hleft : stepsLeft i s = 1 + boundFrom i s.cfg (s.sub + 1) := by simp only [stepsLeft, hp]
  obtain ⟨hp', hsub, hsub'⟩ | ⟨hp', -⟩ := hnext
  · have hle := stepsLeft_refill_le hp' hw'
    rw [hcfg, hsub'] at hle
    rw [hleft, hsub]
    exact Nat.lt_one_add_iff.mpr hle
  · rw [hleft, boundFrom]
    simp only [stepsLeft, hp']
    omega

/-- Every micro-step that does not end the command uses up a step. -/
theorem DrawStep.stepsLeft_lt {f : Word → Word → Word} (hdraw : DrawStep i f s t) (h : RunningAlone i s)
    (hbusy : t.phase ≠ .idle) : stepsLeft i t < stepsLeft i s := by
  cases hdraw with
  | accept hp => exact absurd hp h.busy
  | refill w hp hw => exact stepsLeft_refill_lt hp hw hbusy
  | expand hp => exact stepsLeft_expand_lt h.inv hp hbusy
  | emit hp => exact stepsLeft_emit_lt h.inv hp
  | take w hp hw _ => exact stepsLeft_take_lt h.running hp hw
  | finish _ => exact absurd rfl hbusy

/-- The command completes within the steps left. -/
theorem RunningAlone.completes (h : RunningAlone i s) {b : Nat} (hb : stepsLeft i s ≤ b) :
    ∃ k t, k ≤ b ∧ runSteps k s = .next t ∧ t.phase = .idle ∧ t.done = true := by
  induction b generalizing s with
  | zero =>
    have hpos := stepsLeft_pos (i := i) h.busy
    omega
  | succ b ih =>
    obtain ⟨u, hstep, hdraw, hnext⟩ := h.step
    by_cases hp : u.phase = .idle
    · exact ⟨1, u, by omega, runSteps_one hstep, hp, hdraw.done_of_idle h.busy hp⟩
    · have hless := hdraw.stepsLeft_lt h hp
      obtain ⟨k, t, hk, hrun, hend⟩ := ih (hnext hp) (by omega)
      exact ⟨k + 1, t, by omega, (runSteps_succ hstep).trans hrun, hend⟩

end

/-- Settles O51: at the first REFILL the steps left are within the bound of all the command's sub-draws. -/
theorem everyCommandCompletesWithinItsBound : Obligations.EveryCommandCompletesWithinItsBound := by
  intro s i h hr hin hp hsub
  obtain ⟨w, hw, -⟩ := hr.width
  have hle := stepsLeft_refill_le hp hw
  rw [hsub] at hle
  exact RunningAlone.completes ⟨h, hin, by rw [hp]; decide, hr⟩ (hle.trans_eq (boundFrom_zero i s.cfg))

end Sys2Proof.Machine
end

section
/-! What a completed draw has read (R145, R160): the windows of the bit stream, which is the queue followed by the expansions of
the seeds the command advances through. -/

namespace Sys2Proof.Machine

/-! ### The stream, one expansion at a time -/

/-- A hailstone list is found with its length as fuel. -/
theorem hail_of_hailList {n v : Nat} {l : List Nat} (h : HailList n v l) : hail n l.length v = some l := by
  induction h with
  | last hv => simp [hail, hv]
  | next hv _ ih => simp [hail, Nat.not_le.mpr hv, ih]

theorem seedAfter_succ (k : Nat) (s : Word) : seedAfter (k + 1) s = advanceSeed (seedAfter k s) := by
  induction k generalizing s with
  | zero => rfl
  | succ k ih => exact ih (advanceSeed s)

/-- One more advance adds its expansion at the end (R145). -/
theorem streamBits_succ {n fuel k : Nat} {s : Word} {b e : List Bool} (h : streamBits n fuel k s = some b)
    (he : expandBits n fuel (advanceSeed (seedAfter k s)).toNat = some e) :
    streamBits n fuel (k + 1) s = some (b ++ e) := by
  induction k generalizing s b with
  | zero =>
    obtain rfl : [] = b := Option.some.inj h
    simp [streamBits, show expandBits n fuel (advanceSeed s).toNat = some e from he]
  | succ k ih =>
    rw [streamBits] at h ⊢
    simp only [Option.bind_eq_some_iff, Option.map_eq_some_iff] at h ⊢
    obtain ⟨x, hx, y, hy, rfl⟩ := h
    exact ⟨x, hx, y ++ e, ih hy he, (List.append_assoc x y e).symm⟩

/-- `bits` are the expansions of the seeds between `s` and `s'` (R145): `streamBits` without its fuel. -/
def Streamed (n : Nat) (s : Word) (bits : List Bool) (s' : Word) : Prop :=
  ∃ k fuel, streamBits n fuel k s = some bits ∧ s' = seedAfter k s

theorem Streamed.nil (n : Nat) (s : Word) : Streamed n s [] s := ⟨0, 0, rfl, rfl⟩

theorem Streamed.advance {n : Nat} {s s' : Word} {bits : List Bool} {l : List Nat} (h : Streamed n s bits s') (hn : 1 ≤ n)
    (hl : HailList n ((advanceSeed s').toNat % 2 ^ n) l) :
    Streamed n s (bits ++ (retained false l).reverse.map parity) (advanceSeed s') := by
  obtain ⟨k, fuel, hbits, rfl⟩ := h
  have hexpand := expandBits_of_hail hn (hail_of_hailList hl)
  exact ⟨k + 1, max fuel l.length,
    streamBits_succ (streamBits_mono hbits (le_max_left _ _)) (expandBits_mono hexpand (le_max_right _ _)),
    (seedAfter_succ k s).symm⟩

/-! ### The windows read so far -/

/-- More bits behind a window do not change its value (R145). -/
theorem windowValue_append {bits : List Bool} {k : Nat} (h : 48 * (k + 1) ≤ bits.length) (more : List Bool) (w : Nat) :
    windowValue (bits ++ more) k w = windowValue bits k w := by
  rw [windowValue, windowValue, List.drop_append_of_le_length (by omega),
    List.take_append_of_le_length (by rw [List.length_drop]; omega)]

/-- D_k (R36). -/
def State.subDraw (s : State) (k : Fin 2) : Word := if k = 0 then s.d0 else s.d1

/-- TAKE writes the register of the current sub-draw only (R161). -/
theorem State.takeSubDraw_subDraw (s : State) (w : Nat) (more : Bool) (k : Fin 2) :
    (s.takeSubDraw w more).subDraw k =
      if k = s.sub then subDrawValue (packWindow (s.queue.take 48)) w else s.subDraw k := by
  rw [takeSubDraw_eq]
  obtain hk | hk : k = 0 ∨ k = 1 := by omega
  all_goals obtain hsub | hsub : s.sub = 0 ∨ s.sub = 1 := by omega
  all_goals simp [State.subDraw, hk, hsub]

/-- The command's first `m` sub-draws are the first `m` windows of `bits`, and the queue is the rest (R145). -/
structure WindowsRead (i : Instr) (bits : List Bool) (m : Nat) (s : State) : Prop where
  enough : 48 * m ≤ bits.length
  queue : s.queue = bits.drop (48 * m)
  values : ∀ k : Fin 2, k.val < m → s.subDraw k = windowValue bits k ((subDrawWidths i).getD k 0)

section
variable {i : Instr} {s : State} {bits : List Bool} {m : Nat}

/-- EMIT lengthens the stream at its end (R126). -/
theorem WindowsRead.emit (h : WindowsRead i bits m s) : WindowsRead i (bits ++ s.stack) m s.emit where
  enough := by
    have := h.enough
    rw [List.length_append]; omega
  queue := by rw [State.emit_queue, h.queue, List.drop_append_of_le_length h.enough]
  values := fun k hk => by
    have := h.enough
    rw [windowValue_append (by omega)]
    exact h.values k hk

/-- TAKE reads the next window (R160, R161). -/
theorem WindowsRead.take {w : Nat} (h : WindowsRead i bits s.sub s) (hw : subDrawWidth i s.sub = some w)
    (hlen : 48 ≤ s.queue.length) (more : Bool) : WindowsRead i bits (s.sub + 1) (s.takeSubDraw w more) where
  enough := by
    have := h.enough
    rw [h.queue, List.length_drop] at hlen
    omega
  queue := by rw [takeSubDraw_eq, h.queue, List.drop_drop]; rfl
  values := fun k hk => by
    rw [State.takeSubDraw_subDraw]
    split
    · next hnew =>
      have hwidth : (subDrawWidths i)[s.sub.val]? = some w := hw
      rw [hnew, List.getD_eq_getElem?_getD, hwidth, Option.getD_some, windowValue, ← h.queue]
    · exact h.values k (by omega)

end

/-! ### The run -/

theorem subDrawsDone_of_ne_finish {s : State} (h : s.phase ≠ .finish) : subDrawsDone s = s.sub.val := if_neg h

/-- A command that started in `s₀` has read its windows of the stream so far, and what stands on the stack, or will once the
expansion is at its end, is the next part of the stream. -/
structure ReadsStream (i : Instr) (s₀ : State) (bits : List Bool) (s : State) : Prop where
  cfg : s.cfg = s₀.cfg
  larg : s.larg = s₀.larg
  windows : WindowsRead i (s₀.queue ++ bits) (subDrawsDone s) s
  between : s.phase ≠ .expand → Streamed s₀.cfg.aluWidth s₀.seed (bits ++ s.stack) s.seed
  during : s.phase = .expand → ∀ l, HailList s₀.cfg.aluWidth s.v l →
    Streamed s₀.cfg.aluWidth s₀.seed (bits ++ s.stackAfter l) s.seed

section
variable {i : Instr} {s₀ s : State} {bits : List Bool}

theorem ReadsStream.windows_sub (h : ReadsStream i s₀ bits s) (hp : s.phase ≠ .finish) :
    WindowsRead i (s₀.queue ++ bits) s.sub s := subDrawsDone_of_ne_finish hp ▸ h.windows

theorem subDrawsDone_takeSubDraw (hd : isDraw i = true) {w : Nat} :
    subDrawsDone (s.takeSubDraw w (hasSubDrawAfter i s.sub)) = s.sub + 1 := by
  obtain ⟨hp, hsub, hsub'⟩ | ⟨hp, hsub'⟩ := takeSubDraw_next hd s w
  · rw [subDrawsDone_of_ne_finish (by rw [hp]; decide), hsub', hsub]; rfl
  · rw [subDrawsDone, if_pos hp, hsub']

/-- REFILL starts the expansion of the next seed (R141, R142). -/
theorem ReadsStream.refill (h : ReadsStream i s₀ bits s) (hinv : Inv s) (hp : s.phase = .refill) (w : Nat)
    (hbusy : (s.refill w).phase ≠ .idle) : ReadsStream i s₀ bits (s.refill w) := by
  have hwindows := h.windows_sub (by rw [hp]; decide)
  have hstack : s.stack = [] := hinv.stackIdle (by rw [hp]; rfl)
  have hstream := h.between (by rw [hp]; decide)
  obtain ⟨-, he⟩ | ⟨-, -, he⟩ | ⟨-, -, he⟩ := refill_cases s w <;> rw [he] at hbusy ⊢
  · exact { h with windows := { hwindows with }, between := fun _ => hstream, during := nofun }
  · exact absurd rfl hbusy
  · refine { h with windows := { hwindows with }, between := fun hne => absurd rfl hne, during := fun _ l hl => ?_ }
    have hwidth : 1 ≤ s₀.cfg.aluWidth := h.cfg ▸ le_trans (by norm_num) hinv.legal.1
    rw [hstack, List.append_nil] at hstream
    rw [startExpansion_stackAfter]
    exact hstream.advance hwidth (by rw [← h.cfg] at hl ⊢; exact hl)

/-- EXPAND goes on to the next element of the list, or has the whole expansion on the stack (R125). -/
theorem ReadsStream.expand (h : ReadsStream i s₀ bits s) (hp : s.phase = .expand) (hbusy : s.expand.phase ≠ .idle) :
    ReadsStream i s₀ bits s.expand := by
  have hwindows := h.windows_sub (by rw [hp]; decide)
  obtain ⟨_, -, he⟩ | ⟨hv, he⟩ | ⟨hv, -, he⟩ := expand_walk_cases s <;> rw [he] at hbusy ⊢
  · exact absurd rfl hbusy
  · exact { h with
      windows := { hwindows with }
      between := fun _ => s.stackAfter_last ▸ h.during hp _ (.last hv)
      during := nofun }
  · refine { h with
      windows := subDrawsDone_of_ne_finish (s := s.advanced) (by rw [State.advanced, hp]; decide) ▸ { hwindows with }
      between := fun hne => absurd hp hne
      during := fun _ l hl => ?_ }
    rw [← State.stackAfter_cons]
    exact h.during hp _ (.next hv (h.cfg ▸ hl))

/-- EMIT moves the expansion from the stack into the stream's part that is queued or read (R126). -/
theorem ReadsStream.emit (h : ReadsStream i s₀ bits s) (hp : s.phase = .emit) :
    ReadsStream i s₀ (bits ++ s.stack) s.emit where
  cfg := h.cfg
  larg := h.larg
  windows := List.append_assoc s₀.queue bits s.stack ▸ (h.windows_sub (by rw [hp]; decide)).emit
  between := fun _ => (List.append_nil (bits ++ s.stack)).symm ▸ h.between (by rw [hp]; decide)
  during := nofun

/-- TAKE reads the next window (R161). -/
theorem ReadsStream.take (h : ReadsStream i s₀ bits s) (hd : isDraw i = true) (hp : s.phase = .take) {w : Nat}
    (hw : subDrawWidth i s.sub = some w) (hlen : 48 ≤ s.queue.length) :
    ReadsStream i s₀ bits (s.takeSubDraw w (hasSubDrawAfter i s.sub)) := by
  have hwindows := (h.windows_sub (by rw [hp]; decide)).take hw hlen (hasSubDrawAfter i s.sub)
  have hstream := h.between (by rw [hp]; decide)
  rw [← subDrawsDone_takeSubDraw hd] at hwindows
  exact
    { cfg := (s.takeSubDraw_cfg w _).trans h.cfg
      larg := by rw [takeSubDraw_eq]; exact h.larg
      windows := hwindows
      between := fun _ => by rw [takeSubDraw_eq]; exact hstream
      during := fun he => by obtain ⟨hp', -⟩ | ⟨hp', -⟩ := takeSubDraw_next hd s w <;> simp [hp'] at he }

/-- Every micro-step that does not end the command keeps to the stream. -/
theorem ReadsStream.step {t : State} {f : Word → Word → Word} (h : ReadsStream i s₀ bits s) (halone : RunningAlone i s)
    (hdraw : DrawStep i f s t) (hbusy : t.phase ≠ .idle) : ∃ bits', ReadsStream i s₀ bits' t := by
  cases hdraw with
  | accept hp => exact absurd hp halone.busy
  | refill w hp _ => exact ⟨bits, h.refill halone.inv hp w hbusy⟩
  | expand hp => exact ⟨bits, h.expand hp hbusy⟩
  | emit hp => exact ⟨bits ++ s.stack, h.emit hp⟩
  | take w hp hw hlen => exact ⟨bits, h.take (runningCommand_isDraw halone.running.command) hp hw hlen⟩
  | finish _ => exact absurd rfl hbusy

/-- What the command has made of the stream at its end (R145, R160, R166). -/
structure CompletedFrom (i : Instr) (s₀ : State) (bits : List Bool) (t : State) : Prop where
  stream : Streamed s₀.cfg.aluWidth s₀.seed bits t.seed
  enough : 48 * (subDrawWidths i).length ≤ (s₀.queue ++ bits).length
  queue : t.queue = (s₀.queue ++ bits).drop (48 * (subDrawWidths i).length)
  result : t.result = drawResult i s₀.cfg s₀.larg
    (windowValue (s₀.queue ++ bits) 0 ((subDrawWidths i).getD 0 0))
    (windowValue (s₀.queue ++ bits) 1 ((subDrawWidths i).getD 1 0))

/-- RESULT depends on the sub-draws the command has (R166). -/
theorem drawResult_congr {d0 d1 e0 e1 : Word} (hd : isDraw i = true) (c : Config) (larg : Word) (h0 : d0 = e0)
    (h1 : 1 < (subDrawWidths i).length → d1 = e1) : drawResult i c larg d0 d1 = drawResult i c larg e0 e1 := by
  obtain ⟨hpos, -⟩ := subDrawWidths_length hd
  subst h0
  by_cases htwo : 1 < (subDrawWidths i).length
  · rw [h1 htwo]
  · exact drawResult_single (by omega) c larg _ _ _

/-- FINISH after all the command's windows (R166). -/
theorem ReadsStream.finish (h : ReadsStream i s₀ bits s) (halone : RunningAlone i s) (hp : s.phase = .finish) :
    CompletedFrom i s₀ bits (s.finish (drawResult i s.cfg s.larg s.d0 s.d1)) := by
  have hd := runningCommand_isDraw halone.running.command
  have hstack : s.stack = [] := halone.inv.stackIdle (by rw [hp]; rfl)
  have hdone : subDrawsDone s = (subDrawWidths i).length := (if_pos hp).trans (halone.running.lastSubDraw hp)
  have hstream := h.between (by rw [hp]; decide)
  rw [hstack, List.append_nil] at hstream
  obtain ⟨henough, hqueue, hvalues⟩ := hdone ▸ h.windows
  refine ⟨hstream, henough, hqueue, ?_⟩
  rw [State.finish_result, h.cfg, h.larg]
  exact drawResult_congr hd _ _ (hvalues 0 (subDrawWidths_length hd).1) (hvalues 1)

/-- With no input pending an idle machine stays as it is (R40). -/
theorem runSteps_idle (hlegal : s.cfg.Legal) (hin : s.inputs = []) (hp : s.phase = .idle) (k : Nat) :
    runSteps k s = .next s := by
  induction k with
  | zero => rfl
  | succ k ih => rw [runSteps_succ ((engineTurnRunsTheRunningCommand.2 s hlegal hp).1 hin), ih]

/-- A run to completion without error ends in FINISH, so it has read its windows of the stream. -/
theorem ReadsStream.run {k : Nat} {t : State} (h : ReadsStream i s₀ bits s) (halone : RunningAlone i s)
    (hrun : runSteps k s = .next t) (hidle : t.phase = .idle) (herr : t.err = .ok) :
    ∃ bits', CompletedFrom i s₀ bits' t := by
  induction k generalizing s bits with
  | zero =>
    obtain rfl : s = t := Host.Outcome.next.inj hrun
    exact absurd hidle halone.busy
  | succ k ih =>
    obtain ⟨u, hstep, hdraw, hnext⟩ := halone.step
    rw [runSteps_succ hstep] at hrun
    by_cases hp : u.phase = .idle
    · have hlegal : u.cfg.Legal := hdraw.frame.cfg ▸ halone.inv.legal
      rw [runSteps_idle hlegal (hdraw.frame.inputs.trans halone.noInputs) hp] at hrun
      obtain rfl : u = t := Host.Outcome.next.inj hrun
      obtain ⟨code, hcode, rfl⟩ | ⟨hfinish, rfl⟩ := hdraw.end_cases halone.busy hidle
      · exact absurd herr hcode
      · exact ⟨bits, h.finish halone hfinish⟩
    · obtain ⟨bits', h'⟩ := h.step halone hdraw hp
      exact ih h' (hnext hp) hrun

end

/-- Settles O52: at the first REFILL nothing is read, and `ReadsStream.run` follows the command to FINISH. -/
theorem completedDrawReadsTheBitStream : Obligations.CompletedDrawReadsTheBitStream := by
  intro s t i k hinv hr hin _ hp hsub hrun hidle herr
  have hdone : subDrawsDone s = 0 := by rw [subDrawsDone_of_ne_finish (by rw [hp]; decide), hsub]; rfl
  have hstart : ReadsStream i s [] s :=
    { cfg := rfl
      larg := rfl
      windows := hdone ▸ ⟨Nat.zero_le _, (List.append_nil s.queue).symm, nofun⟩
      between := fun _ => by rw [hinv.stackIdle (by rw [hp]; rfl)]; exact .nil _ _
      during := fun he => absurd (hp.symm.trans he) (by decide) }
  obtain ⟨bits, ⟨n, fuel, hbits, hseed⟩, henough, hqueue, hresult⟩ :=
    hstart.run ⟨hinv, hin, by rw [hp]; decide, hr⟩ hrun hidle herr
  exact ⟨n, fuel, bits, hbits, hseed, henough, hqueue, hresult⟩

end Sys2Proof.Machine
end

section
/-! The value assembler (43_value_assembler.md): the window of TAKE (R160 to R162), RESULT of each draw command (R164 to R179), the
range of the limited draws (R180), and what the float packings stand for (R176). -/

namespace Sys2Proof.Machine

/-! ### The window -/

/-- Bit j of the first 48 bits of a queue that holds them, as the bit of the accumulator they are packed in (R161). -/
theorem queue_getElem?_of_lt {q : List Bool} (hq : 48 ≤ q.length) {j : Nat} (hj : j < 48) :
    q[j]? = some ((packWindow (q.take 48)).getLsbD j) := by
  rw [packWindow_getLsbD _ hj, List.getElem?_take_of_lt hj, List.getElem?_eq_getElem (by omega), Option.getD_some]

/-- Settles O18: TAKE is `takeSubDraw`; the queue's head is the accumulator bit by bit, and the sub-draw value is the accumulator's
last w bits. -/
theorem takePopsTheWindow : Obligations.TakePopsTheWindow := by
  intro i s w hd hwf hp hw hqueue
  obtain ⟨-, hwidth⟩ := width_le hwf hw
  have hacc (more : Bool) : (s.takeSubDraw w more).acc = packWindow (s.queue.take 48) := by rw [takeSubDraw_eq]
  have hvalue (more : Bool) : (s.takeSubDraw w more).subDraw s.sub = subDrawValue (packWindow (s.queue.take 48)) w := by
    rw [State.takeSubDraw_subDraw, if_pos rfl]
  unfold State.subDraw at hvalue
  refine ⟨_, by rw [exec_draw hd, drawStep_take hp hw hqueue], fun j hj => ?_, fun j hj => ?_, ?_, ?_⟩
  · rw [hacc]
    exact queue_getElem?_of_lt hqueue hj
  · rw [hvalue, subDrawValue_getLsbD _ hwidth hj]
    exact queue_getElem?_of_lt hqueue (by omega)
  · rw [hvalue]
    exact subDrawValue_lt _ hwidth
  · rw [takeSubDraw_eq]
    by_cases h0 : s.sub = 0 <;> simp [hasSubDrawAfter, h0]

/-! ### RESULT -/

/-- FINISH of every draw command (R166, R46). -/
theorem exec_draw_finish {i : Instr} {s : State} (hd : isDraw i = true) (hp : s.phase = .finish) :
    exec i s = .next (completed (drawResult i s.cfg s.larg s.d0 s.d1) s) := by
  rw [exec_draw hd, drawStep_finish hp]
  rfl

/-- Settles O20: the five commands' rows of `drawResult`. -/
theorem narrowDrawResults : Obligations.NarrowDrawResults :=
  fun _ hp => ⟨fun _ => exec_draw_finish rfl hp, exec_draw_finish rfl hp, exec_draw_finish rfl hp, exec_draw_finish rfl hp,
    exec_draw_finish rfl hp⟩

/-- Settles O22: the three commands' rows of `drawResult`. -/
theorem limitedDrawResults : Obligations.LimitedDrawResults :=
  fun _ hp => ⟨exec_draw_finish rfl hp, exec_draw_finish rfl hp, exec_draw_finish rfl hp⟩

/-- Settles O24: the two commands' rows of `drawResult`; D0 below 2^26 loses no bit in the shift by 27. -/
theorem floatDrawResults : Obligations.FloatDrawResults := by
  refine fun s hp => ⟨exec_draw_finish rfl hp, fun h0 _ => ?_⟩
  rw [exec_draw_finish rfl hp, drawResult, Nat.mod_eq_of_lt (by omega)]

/-! ### The two combinations of NEXT_LONG -/

section
variable {d0 d1 : Word}

/-- CONCAT of two 32-bit halves puts them side by side (R173). -/
theorem longOf_concat (h0 : d0.toNat < 2 ^ 32) (h1 : d1.toNat < 2 ^ 32) : longOf .concat d0 d1 = d0 <<< 32 ||| d1 := by
  apply BitVec.eq_of_toNat_eq
  rw [BitVec.toNat_or, BitVec.toNat_shiftLeft, Nat.shiftLeft_eq, Nat.mod_eq_of_lt (by omega), ← Nat.shiftLeft_eq,
    ← Nat.shiftLeft_add_eq_or_of_lt h1, Nat.shiftLeft_eq, longOf, BitVec.toNat_ofNat]
  omega

/-- A 32-bit half read as signed: bit 31 is its sign (R11). -/
theorem signedOf_half_eq (h1 : d1.toNat < 2 ^ 32) :
    signedOf 32 d1.toNat = d1.toNat - (if d1.getLsbD 31 then 0x100000000 else 0 : Int) := by
  have hbit : d1.getLsbD 31 = decide (2 ^ 31 ≤ d1.toNat) := by
    rw [BitVec.getLsbD, Nat.testBit_eq_decide_div_mod_eq, decide_eq_decide]; omega
  simp only [signedOf, hbit, decide_eq_true_eq]
  split <;> split <;> omega

/-- Sign extension of a negative low half takes 2^32 from the high half (R173). -/
theorem longOf_addSext (h0 : d0.toNat < 2 ^ 32) (h1 : d1.toNat < 2 ^ 32) :
    longOf .addSext d0 d1 = longOf .concat d0 d1 - (if d1.getLsbD 31 then 0x100000000#64 else 0#64) := by
  have hexact : (d0.toNat * 2 ^ 32 + signedOf 32 d1.toNat : Int) =
      ((d0.toNat * 2 ^ 32 + d1.toNat : Nat) : Int) - (if d1.getLsbD 31 then 0x100000000 else 0) := by
    rw [signedOf_half_eq h1]; push_cast; ring
  simp only [longOf, Nat.mod_eq_of_lt h0, Nat.mod_eq_of_lt h1, hexact]
  rw [sub_eq_add_neg, BitVec.ofInt_add, BitVec.ofInt_natCast, BitVec.sub_eq_add_neg]
  split <;> rfl

end

/-- Settles O21: NEXT_LONG's row of `drawResult`, and what the two combinations are for 32-bit halves. -/
theorem longDrawCombinesTheHalves : Obligations.LongDrawCombinesTheHalves :=
  fun _ hp => ⟨exec_draw_finish rfl hp, fun h0 h1 => ⟨longOf_concat h0 h1, longOf_addSext h0 h1⟩⟩

/-! ### The range of the limited draws -/

/-- With FLOOR a bounded draw lies in [0, L) (R180). -/
theorem boundedOf_floor_range (t : Nat) (x : Int) {l : Int} (hl : 0 < l) :
    0 ≤ boundedOf .floor t x l ∧ boundedOf .floor t x l < l :=
  ⟨Int.fmod_nonneg_of_pos _ hl, Int.fmod_lt_of_pos _ hl⟩

/-- With TRUNC a bounded draw lies in [0, L), but for the most negative one when L does not divide it (R180). -/
theorem boundedOf_trunc_range_iff (t : Nat) (x : Int) {l : Int} (hl : 0 < l) :
    (0 ≤ boundedOf .trunc t x l ∧ boundedOf .trunc t x l < l) ↔ ¬ (x = -(2 ^ (t - 1)) ∧ ¬ l ∣ 2 ^ (t - 1)) := by
  by_cases hx : x = -(2 ^ (t - 1))
  · have hneg : boundedOf .trunc t x l = -(Int.tmod (2 ^ (t - 1)) l) := by
      simp only [boundedOf, if_pos hx]
      rw [hx, Int.neg_tmod]
    have hnonneg : 0 ≤ Int.tmod (2 ^ (t - 1)) l := Int.tmod_nonneg _ (by positivity)
    rw [hneg, Int.dvd_iff_tmod_eq_zero]
    simp only [hx, true_and, not_not]
    omega
  · have habs : boundedOf .trunc t x l = Int.tmod x.natAbs l := by simp only [boundedOf, if_neg hx]
    rw [habs]
    simp only [hx, false_and, not_false_eq_true, iff_true]
    exact ⟨Int.tmod_nonneg _ (by positivity), Int.tmod_lt_of_pos _ hl⟩

/-- In both modes the magnitude of a bounded draw is below L (R165). -/
theorem boundedOf_abs_lt (m : ModMode) (t : Nat) (x : Int) {l : Int} (hl : 0 < l) :
    -l < boundedOf m t x l ∧ boundedOf m t x l < l := by
  cases m with
  | floor =>
    obtain ⟨h0, h1⟩ := boundedOf_floor_range t x hl
    omega
  | trunc => exact ⟨Int.lt_tmod_of_pos _ hl, Int.tmod_lt_of_pos _ hl⟩

/-- A limit is a signed 64-bit number, so a bounded draw survives its sign extension (R164, R165). -/
theorem toInt_ofInt_boundedOf (m : ModMode) (t : Nat) (x : Int) {l : Int} (hl : 0 < l) (hmax : l < 2 ^ 63) :
    (BitVec.ofInt 64 (boundedOf m t x l)).toInt = boundedOf m t x l := by
  obtain ⟨hlow, hhigh⟩ := boundedOf_abs_lt m t x hl
  exact BitVec.toInt_ofInt_eq_self (by norm_num) (by norm_num; omega) (by norm_num; omega)

/-- Settles O23: FINISH answers `boundedOf`, whose range `boundedOf_floor_range` and `boundedOf_trunc_range_iff` give. -/
theorem limitedDrawsStayInRange : Obligations.LimitedDrawsStayInRange := by
  intro i s t x l hp hcase hl
  obtain ⟨hexec, hmax⟩ : exec i s = .next (completed (BitVec.ofInt 64 (boundedOf s.cfg.modMode t x l)) s) ∧ l < 2 ^ 63 := by
    have hlarg := s.larg.isLt
    obtain ⟨hshort, hint, hlong⟩ := limitedDrawResults s hp
    obtain ⟨rfl, rfl, rfl, rfl⟩ | ⟨rfl, rfl, rfl, rfl⟩ | ⟨rfl, rfl, rfl, rfl⟩ := hcase
    · exact ⟨hshort, (signedOf_range 16 _ (by norm_num) (Nat.mod_lt _ (by norm_num))).2.trans (by norm_num)⟩
    · exact ⟨hint, (signedOf_range 32 _ (by norm_num) (Nat.mod_lt _ (by norm_num))).2.trans (by norm_num)⟩
    · exact ⟨hlong, (signedOf_range 64 _ (by norm_num) hlarg).2⟩
  refine ⟨_, hexec, ?_⟩
  dsimp only [completed]
  rw [toInt_ofInt_boundedOf _ t x hl hmax]
  exact ⟨fun hm => hm ▸ boundedOf_floor_range t x hl, fun hm => hm ▸ boundedOf_trunc_range_iff t x hl⟩

/-! ### The float packings -/

/-- The pattern of R176 with F fraction bits, for a number with its leading one at bit k: exponent field k + B, and the bits below
the leading one, aligned to the left. -/
def floatPattern (F B m : Nat) : Nat := ((m.log2 + B) <<< F) ||| ((m <<< (F - m.log2)) &&& (2 ^ F - 1))

/-- The two fields of a pattern do not overlap (G1). -/
theorem floatPattern_eq (F B m : Nat) : floatPattern F B m = 2 ^ F * (m.log2 + B) + m * 2 ^ (F - m.log2) % 2 ^ F := by
  rw [floatPattern, Nat.and_two_pow_sub_one_eq_mod, ← Nat.shiftLeft_add_eq_or_of_lt (Nat.mod_lt _ (by positivity)),
    Nat.shiftLeft_eq, Nat.shiftLeft_eq, Nat.mul_comm]

/-- The exponent field of a pattern. -/
theorem floatPattern_div (F B m : Nat) : floatPattern F B m / 2 ^ F = m.log2 + B := by
  rw [floatPattern_eq, Nat.mul_add_div (by positivity), Nat.div_eq_of_lt (Nat.mod_lt _ (by positivity)), Nat.add_zero]

/-- The fraction of a pattern. -/
theorem floatPattern_mod (F B m : Nat) : floatPattern F B m % 2 ^ F = m * 2 ^ (F - m.log2) % 2 ^ F := by
  rw [floatPattern_eq, Nat.mul_add_mod, Nat.mod_mod]

section
variable {F m : Nat} (hm : 0 < m) (hlt : m < 2 ^ (F + 1))
include hm hlt

theorem log2_le_of_lt_two_pow_succ : m.log2 ≤ F :=
  Nat.le_of_lt_succ ((Nat.log2_lt hm.ne').mpr hlt)

/-- Aligned to bit F, the leading one is 2^F and the rest is the fraction. -/
theorem two_pow_add_aligned_mod : 2 ^ F + m * 2 ^ (F - m.log2) % 2 ^ F = m * 2 ^ (F - m.log2) := by
  have hk := log2_le_of_lt_two_pow_succ hm hlt
  have hsplit : 2 ^ m.log2 * 2 ^ (F - m.log2) = 2 ^ F := by rw [← pow_add, Nat.add_sub_cancel' hk]
  have hlow : 2 ^ F ≤ m * 2 ^ (F - m.log2) := hsplit ▸ Nat.mul_le_mul_right _ (Nat.log2_self_le hm.ne')
  have hhigh : m * 2 ^ (F - m.log2) < 2 ^ F + 2 ^ F := by
    rw [← hsplit, ← two_mul, ← mul_assoc, ← Nat.pow_succ']
    exact Nat.mul_lt_mul_of_pos_right Nat.lt_log2_self (by positivity)
  rw [Nat.mod_eq_sub_mod hlow, Nat.mod_eq_of_lt (by omega)]
  omega

/-- A pattern is a normal number, and its significand times 2 to its exponent field is m scaled by 2^(F + B) (R176). -/
theorem floatPattern_exact {B E : Nat} (hE : F + B = E) :
    B ≤ floatPattern F B m / 2 ^ F ∧ floatPattern F B m / 2 ^ F ≤ E ∧
      (2 ^ F + floatPattern F B m % 2 ^ F) * 2 ^ (floatPattern F B m / 2 ^ F) = m * 2 ^ E := by
  have hk := log2_le_of_lt_two_pow_succ hm hlt
  rw [floatPattern_div, floatPattern_mod, two_pow_add_aligned_mod hm hlt, mul_assoc, ← pow_add,
    show F - m.log2 + (m.log2 + B) = E by omega]
  exact ⟨by omega, by omega, rfl⟩

/-- The exponent field is at most F + B, so the bits above it are 0. -/
theorem floatPattern_lt (B : Nat) : floatPattern F B m < (F + B + 1) * 2 ^ F :=
  (Nat.div_lt_iff_lt_mul (by positivity)).mp (Nat.lt_succ_of_le (floatPattern_exact hm hlt rfl).2.1)

end

/-- The packings of R176 are `floatPattern` in the two layouts of G1. -/
theorem f32bits_toNat {m : Nat} (hm : 0 < m) (hlt : m < 2 ^ 24) : (f32bits m).toNat = floatPattern 23 103 m := by
  rw [f32bits, if_neg hm.ne', BitVec.toNat_ofNat]
  exact Nat.mod_eq_of_lt ((floatPattern_lt hm hlt 103).trans (by norm_num))

theorem f64bits_toNat {m : Nat} (hm : 0 < m) (hlt : m < 2 ^ 53) : (f64bits m).toNat = floatPattern 52 970 m := by
  rw [f64bits, if_neg hm.ne', BitVec.toNat_ofNat]
  exact Nat.mod_eq_of_lt ((floatPattern_lt hm hlt 970).trans (by norm_num))

/-- Settles O25: both packings are `floatPattern`, which is exact. -/
theorem floatPackingsAreExact : Obligations.FloatPackingsAreExact := by
  refine ⟨rfl, rfl, fun m hm hlt => ?_, fun m hm hlt => ?_⟩
  · dsimp only
    rw [f32bits_toNat hm hlt]
    exact ⟨(floatPattern_lt hm hlt 103).trans (by norm_num), floatPattern_exact hm hlt rfl⟩
  · dsimp only
    rw [f64bits_toNat hm hlt]
    exact ⟨(floatPattern_lt hm hlt 970).trans (by norm_num), floatPattern_exact hm hlt rfl⟩

end Sys2Proof.Machine
end

section
/-! Rejection (60_exceptions.md): a draw command that fails a test of acceptance leaves only the latches, DONE and ERR (R204, R207). -/

namespace Sys2Proof.Machine

/-- Acceptance's latch followed by `reject` (R44, R204). -/
theorem reject_latchCommand_encode (i : Instr) (s : State) (code : ErrCode) :
    (s.latchCommand (encode i)).reject code =
      { s with lcmd := ⟨i.opcode, i.width⟩, larg := s.arg, sub := 0, abt := false, done := true, err := code } := by
  simp [State.latchCommand, State.reject, encode]

/-- Settles O14: of the cases of acceptance the hypothesis excludes the last, and each of the others is a rejection with its code. -/
theorem rejectedDrawChangesOnlyTheLatches : Obligations.RejectedDrawChangesOnlyTheLatches := by
  intro i s hd hidle hbad
  rw [exec_draw_idle hd hidle]
  obtain ⟨hwf, he⟩ | ⟨hwf, hs, he⟩ | ⟨hwf, hs, -, he⟩ | ⟨hwf, hs, hl, -⟩ := acceptDraw_cases i s
  · rw [he, reject_latchCommand_encode, if_pos hwf]
  · rw [he, reject_latchCommand_encode, if_neg (by simp [hwf]), if_pos hs]
  · rw [he, reject_latchCommand_encode, if_neg (by simp [hwf]), if_neg (by simp [hs])]
  · simp [hwf, hs, hl] at hbad

end Sys2Proof.Machine
end

section
/-! The reset input (R43, R230): what the host reads after it, and the hidden state it leaves. -/

namespace Sys2Proof.Machine

/-- The reset input is taken in every phase, whatever command runs (R230, R231). -/
theorem step_rst {s : State} {rest : List Input} (hlegal : s.cfg.Legal) (hin : s.inputs = .rst :: rest) :
    step s = .next (s.withInputs rest).resetEvent := by
  rw [step_of_legal hlegal, hin]

/-- After reset STATUS reads 0: no flag is set, ERR is OK and no command runs (R26, R230). -/
theorem State.resetEvent_statusWord (s : State) : s.resetEvent.statusWord = 0 := by
  have hfields : s.resetEvent.statusWord = State.reset.statusWord := rfl
  rw [hfields]
  decide

/-- After reset the host reads the configuration in PARAM and 0 in every other register (R22, R230). -/
theorem State.resetEvent_readReg (s : State) (r : Reg) :
    s.resetEvent.readReg r = if r = .param then paramWord s.cfg else 0 := by
  cases r with
  | status => exact s.resetEvent_statusWord
  | param => exact congrArg paramWord s.resetEvent_cfg
  | cmd | arg | result | qcount | abort | reserved => rfl

/-- Settles O1: the window reads by `State.resetEvent_readReg`; the hidden state and the inputs are those `resetEvent` writes. -/
theorem resetInputGivesTheResetState : Obligations.ResetInputGivesTheResetState := by
  intro s rest hlegal hin
  have hread := (s.withInputs rest).resetEvent_readReg
  refine ⟨_, step_rst hlegal hin, hread .arg, hread .result, hread .status, hread .qcount, hread .param, hread .cmd,
    hread .abort, rfl, rfl, rfl, rfl, rfl, rfl, rfl, rfl, rfl, rfl, rfl, rfl, rfl⟩

end Sys2Proof.Machine
end
